-- ==== Sys2Proof/Word.lean ====
section
/-! DEFINITION. Word.lean: the 32-bit word, the byte and their plainest arithmetic (chapter 00, "Values and notation"). -/

namespace Sys2Proof

/-- A 32-bit register or instruction word. -/
abbrev Word := BitVec 32

/-- One byte of memory. -/
abbrev Byte := BitVec 8

/-- `Bits(x, hi, lo)` of the spec on a natural number. -/
def bits (x hi lo : Nat) : Nat := (x >>> lo) % 2 ^ (hi - lo + 1)

/-- Bit `i` of a natural number. -/
def bit (x i : Nat) : Bool := x.testBit i

end Sys2Proof
end

