-- ==== Sys2Proof/Syntax.lean ====
section
/-! DEFINITION. Syntax.lean: every row of the opcode table as a constructor of the one inductive `Instr`
(the encoded instructions of chapters 08 to 22 and the device, agent and bank-unit events), with its operands. -/

namespace Sys2Proof

/-- R format, three sources fields and the scalar-broadcast bit (R142, R151). -/
structure RArgs where
  d : BitVec 6
  a : BitVec 6
  b : BitVec 6
  qa : Bool
  qb : Bool
  x : Bool
  deriving DecidableEq, Repr

/-- R format with two register sources and X reserved (R142, R150). -/
structure SArgs where
  d : BitVec 6
  a : BitVec 6
  b : BitVec 6
  qa : Bool
  qb : Bool
  deriving DecidableEq, Repr

/-- R format with one register source; B, QB and X reserved. -/
structure UArgs where
  d : BitVec 6
  a : BitVec 6
  qa : Bool
  deriving DecidableEq, Repr

/-- R format with a source in A only. -/
structure SrcArgs where
  a : BitVec 6
  qa : Bool
  deriving DecidableEq, Repr

/-- R format with sources in A and B and no destination. -/
structure Src2Args where
  a : BitVec 6
  b : BitVec 6
  qa : Bool
  qb : Bool
  deriving DecidableEq, Repr

/-- SCMP (R230): condition, destination predicate, two scalar sources. -/
structure ScmpArgs where
  c : BitVec 5
  d : BitVec 3
  a : BitVec 6
  b : BitVec 6
  qa : Bool
  qb : Bool
  deriving DecidableEq, Repr

/-- VCMP (R234): condition, destination predicate, two vector sources, broadcast bit. -/
structure VcmpArgs where
  c : BitVec 5
  d : BitVec 3
  a : BitVec 6
  b : BitVec 6
  qa : Bool
  qb : Bool
  x : Bool
  deriving DecidableEq, Repr

/-- Q format (R143). -/
structure QArgs where
  d : BitVec 6
  a : BitVec 6
  b : BitVec 6
  c : BitVec 6
  deriving DecidableEq, Repr

/-- I format with a destination, a source and a 14-bit immediate (R144). -/
structure IArgs where
  d : BitVec 6
  a : BitVec 6
  imm : BitVec 14
  deriving DecidableEq, Repr

/-- SETW (R121): the scalar that receives the grant, the exact and pin bits and the request code. -/
structure SetwArgs where
  d : BitVec 6
  x : Bool
  p : Bool
  r : BitVec 2
  deriving DecidableEq, Repr

/-- One selector of BRX (R149): the predicate index and its negation. -/
structure BrxSel where
  neg : Bool
  p : BitVec 3
  deriving DecidableEq, Repr

/-- X format, BRX only (R149). -/
structure BrxArgs where
  s0 : BrxSel
  s1 : BrxSel
  s2 : BrxSel
  s3 : BrxSel
  n : BitVec 2
  deriving DecidableEq, Repr

/-- Memory format of LD, ST, SLD and SST (R146). -/
structure MemArgs where
  sz : BitVec 3
  d : BitVec 6
  a : BitVec 6
  w : BitVec 4
  off : BitVec 7
  deriving DecidableEq, Repr

/-- Memory format of LDFE: SZ[1:0] only, the clear bit is the constructor (R146). -/
structure LdfeArgs where
  sz : BitVec 2
  d : BitVec 6
  a : BitVec 6
  w : BitVec 4
  off : BitVec 7
  deriving DecidableEq, Repr

/-- Atomic format (R147). -/
structure AtomArgs where
  d : BitVec 6
  a : BitVec 6
  w : BitVec 4
  sc : BitVec 3
  sz : BitVec 2
  deriving DecidableEq, Repr

/-- PREF (R306): token, window, length scalar. -/
structure PrefArgs where
  d : BitVec 3
  w : BitVec 4
  b : BitVec 6
  qb : Bool
  deriving DecidableEq, Repr

/-- COPY (R307): token, and the number of the first descriptor scalar divided by 8. -/
structure CopyArgs where
  d : BitVec 3
  a8 : BitVec 3
  qa : Bool
  deriving DecidableEq, Repr

/-- MLOOP (R334): id destination, first descriptor scalar divided by 8, predecessor scalar. -/
structure MloopArgs where
  d : BitVec 6
  a8 : BitVec 3
  b : BitVec 6
  qa : Bool
  qb : Bool
  deriving DecidableEq, Repr

/-- SYSX minors with three operands (R56): QA, QB and X reserved. -/
structure SysxArgs where
  d : BitVec 6
  a : BitVec 6
  b : BitVec 6
  deriving DecidableEq, Repr

/-- The fields of a Zalnen microword other than KIND (R350). -/
structure Micro where
  carg : BitVec 5
  fop : BitVec 4
  fd : BitVec 3
  fap : BitVec 2
  fpost : Bool
  foff : BitVec 6
  aop : BitVec 5
  ax : BitVec 3
  ay : BitVec 3
  mode : BitVec 2
  idx : BitVec 4
  part : BitVec 3
  wop : BitVec 4
  ws : BitVec 3
  wap : BitVec 2
  wpost : Bool
  woff : BitVec 6
  deriving DecidableEq, Repr

/-- The three kinds of register context a core holds: the agent slot, a team's team-scalar context, a group (R55, R116, R119). -/
inductive CtxRef where
  | agent (core : Nat)
  | scalar (core slot : Nat)
  | group (core slot g : Nat)
  deriving DecidableEq, Repr

/-- What a partner device asks over the fabric (R285, R444): a load, a store or an atomic on the shared memory of this device. -/
inductive RemoteOp where
  | load (len : Nat)
  | store (bytes : List Byte)
  | atomic (op : Nat) (wide : Bool) (x y : BitVec 64)
  deriving DecidableEq, Repr

/-- A remote access as it arrives (R285, R444): the sending device's domain number, the function and the thread that issued it
there, the slice-logical stack address and the operation. -/
structure RemoteReq where
  dom : Nat
  fn : Nat
  thread : Nat
  addr : Nat
  op : RemoteOp
  deriving DecidableEq, Repr

/-- A register of a function as a write from the host names it (R113, R415, R423): the function whose BAR 0 the write came through, and
the function whose register it is. -/
structure BarFunc where
  via : Nat
  f : Nat
  deriving DecidableEq, Repr

/-- What the hardware evicts (R305, R277, R365): an L1 line of a core, an entry of a core's TLB or of the TLB that a
cluster or a stack shares, a resident shared-memory line. -/
inductive Evict where
  | l1 (core line : Nat)
  | tlb (core f page : Nat)
  | l2tlb (group f page : Nat)
  | shared (line : Nat)
  deriving DecidableEq, Repr

/-- Every row of the opcode table: first the rows with operands, then those without (a request to the agents or to the
Larder takes its operands from `State.request`). -/
inductive Instr where
  /-- JOIN (R193): Parks the gang at a join slot and merges the parked lanes when the slot completes. -/
  | join (a : BitVec 3)
  /-- LEAVE (R194): Clears the active lanes from nested join slots, parks them at the named slot and merges every slot that completes. -/
  | leave (a : BitVec 3)
  /-- JMPR (R190): Sends each active lane to the instruction-memory address held in its own vector register. -/
  | jmpr (r : SrcArgs)
  /-- BR (R188): Sends each lane of the gang whose guard is true to the PC-relative target within the same slot. -/
  | br (i : BitVec 26)
  /-- BRX (R189): Sends each lane to the target of its lowest true predicate, or to the fall-through target. -/
  | brx (b : BrxArgs) (ts : List Word)
  /-- TOK (R192): Sets a join slot with a join PC and the gang's lanes as its mask. -/
  | tok (j : BitVec 3) (i : BitVec 14)
  /-- JMPF (R188): Sends the whole gang to a target in any landed logical slot. -/
  | jmpf (i : BitVec 26)
  /-- CALL (R199): Pushes a return entry onto each quad's return stack and transfers the gang to the target. -/
  | call (i : BitVec 26)
  /-- MODE (R159): Writes one field of MR from an immediate and traps with BAD_MODE on a reserved TYPE or RND. -/
  | mode (d : BitVec 6) (i : BitVec 14)
  /-- SETW (R121): Requests a width grant and, once a width fits, forms the team's groups. -/
  | setw (r : SetwArgs)
  /-- FORMGROUPS (R122): A waiting SETW gains room, forms NGRP groups at the chosen grant and writes the grant into each group. -/
  | formGroups (core : Nat) (slot : Nat)
  /-- CFETCH (R136): Binds a logical slot and starts copying a 4 KiB code segment into it. -/
  | cfetch (d : BitVec 6) (a : BitVec 6)
  /-- CFETCH_WAIT (R136): CFETCH with wait, which also waits until the slot has landed or failed. -/
  | cfetchWait (d : BitVec 6) (a : BitVec 6)
  /-- CLAND (R136): Waits until a logical slot is no longer LANDING and traps if it failed. -/
  | cland (d : BitVec 6)
  /-- LANDED (R136): A code copy into instruction memory finishes and leaves the slot LANDED or FAILED. -/
  | landed (core : Nat) (isl : Nat)
  /-- MOVL (R246): Writes a 32-bit literal word into a vector register of each active lane. -/
  | movl (d : BitVec 6) (lit : Word)
  /-- MOVL_SCALAR (R246): Writes a 32-bit literal word into a scalar register once per gang. -/
  | movlScalar (d : BitVec 6) (lit : Word)
  /-- TRAP (R203): Raises user cause 0x1F0+n once for the gang when some lane is active. -/
  | trap (n : BitVec 4)
  /-- SALU_ADD (R228): Scalar 32-bit add. -/
  | saluAdd (r : SArgs)
  /-- SALU_SUB (R228): Scalar 32-bit subtract. -/
  | saluSub (r : SArgs)
  /-- SALU_MUL (R228): Scalar low-word multiply. -/
  | saluMul (r : SArgs)
  /-- SALU_MULHI (R228): Scalar signed high-word multiply. -/
  | saluMulhi (r : SArgs)
  /-- MULHU (R228): Scalar unsigned high-word multiply. -/
  | mulhu (r : SArgs)
  /-- SALU_AND (R228): Scalar bitwise AND. -/
  | saluAnd (r : SArgs)
  /-- SALU_OR (R228): Scalar bitwise OR. -/
  | saluOr (r : SArgs)
  /-- SALU_XOR (R228): Scalar bitwise XOR. -/
  | saluXor (r : SArgs)
  /-- SALU_ANDN (R228): Scalar AND with the complement of B. -/
  | saluAndn (r : SArgs)
  /-- SALU_SHL (R228): Scalar shift left. -/
  | saluShl (r : SArgs)
  /-- SALU_SHR (R228): Scalar logical shift right. -/
  | saluShr (r : SArgs)
  /-- SALU_SAR (R228): Scalar arithmetic shift right. -/
  | saluSar (r : SArgs)
  /-- SALU_MIN (R228): Scalar signed minimum. -/
  | saluMin (r : SArgs)
  /-- SALU_MAX (R228): Scalar signed maximum. -/
  | saluMax (r : SArgs)
  /-- MINU (R228): Scalar unsigned minimum. -/
  | minu (r : SArgs)
  /-- MAXU (R228): Scalar unsigned maximum. -/
  | maxu (r : SArgs)
  /-- SALU_CLZ (R228): Scalar count of leading zeros. -/
  | saluClz (r : UArgs)
  /-- SALU_POPC (R228): Scalar population count. -/
  | saluPopc (r : UArgs)
  /-- SALU_BREV (R228): Scalar bit reverse. -/
  | saluBrev (r : UArgs)
  /-- SALU_MOV (R228): Scalar register move. -/
  | saluMov (r : UArgs)
  /-- ADD64 (R228): Scalar 64-bit add on register pairs. -/
  | add64 (r : SArgs)
  /-- SUB64 (R228): Scalar 64-bit subtract on register pairs. -/
  | sub64 (r : SArgs)
  /-- SADDI (R229): Adds a sign-extended 14-bit immediate to a scalar register. -/
  | saddi (r : IArgs)
  /-- SLI (R229): Loads a sign-extended 14-bit immediate into a scalar register. -/
  | sli (d : BitVec 6) (i : BitVec 14)
  /-- SCMP (R230): Compares two scalars under condition F and writes a predicate in every lane of the gang. -/
  | scmp (r : ScmpArgs)
  /-- VALU_ADD (R231): Vector element-wise add, wrapping. -/
  | valuAdd (r : RArgs)
  /-- VALU_SUB (R231): Vector element-wise subtract. -/
  | valuSub (r : RArgs)
  /-- VALU_MUL (R231): Vector element-wise low multiply. -/
  | valuMul (r : RArgs)
  /-- VALU_MULHI (R231): Vector element-wise high multiply. -/
  | valuMulhi (r : RArgs)
  /-- VALU_MIN (R231): Vector element-wise minimum by TYPE. -/
  | valuMin (r : RArgs)
  /-- VALU_MAX (R231): Vector element-wise maximum by TYPE. -/
  | valuMax (r : RArgs)
  /-- VALU_AND (R231): Vector bitwise AND. -/
  | valuAnd (r : RArgs)
  /-- VALU_OR (R231): Vector bitwise OR. -/
  | valuOr (r : RArgs)
  /-- VALU_XOR (R231): Vector bitwise XOR. -/
  | valuXor (r : RArgs)
  /-- VALU_ANDN (R231): Vector AND with complement. -/
  | valuAndn (r : RArgs)
  /-- VALU_SHL (R231): Vector element-wise shift left. -/
  | valuShl (r : RArgs)
  /-- VALU_SHR (R231): Vector element-wise logical shift right. -/
  | valuShr (r : RArgs)
  /-- VALU_SAR (R231): Vector element-wise arithmetic shift right. -/
  | valuSar (r : RArgs)
  /-- ROTL (R231): Vector element-wise rotate left. -/
  | rotl (r : RArgs)
  /-- VALU_CLZ (R231): Vector element-wise leading-zero count. -/
  | valuClz (r : UArgs)
  /-- VALU_POPC (R231): Vector element-wise population count. -/
  | valuPopc (r : UArgs)
  /-- VALU_BREV (R231): Vector element-wise bit reverse. -/
  | valuBrev (r : UArgs)
  /-- ABS (R231): Vector element-wise absolute value modulo 2^w. -/
  | abs (r : UArgs)
  /-- NEG (R231): Vector element-wise negation modulo 2^w. -/
  | neg (r : UArgs)
  /-- VALU_MOV (R231): Vector register copy. -/
  | valuMov (r : UArgs)
  /-- SEL (R231): Vector bitwise select using the old destination as mask. -/
  | sel (r : RArgs)
  /-- BFE (R231): Vector bit-field extract. -/
  | bfe (r : RArgs)
  /-- BFI (R231): Vector bit-field insert into the old destination. -/
  | bfi (r : RArgs)
  /-- ADDSAT (R231): Vector saturating add. -/
  | addsat (r : RArgs)
  /-- SUBSAT (R231): Vector saturating subtract. -/
  | subsat (r : RArgs)
  /-- DIV (R30): Deprecated Welell 2 integer divide executed by microcoded expansion in a W16 team. -/
  | div (r : RArgs)
  /-- REM (R30): Deprecated Welell 2 integer remainder executed by microcoded expansion in a W16 team. -/
  | rem (r : RArgs)
  /-- VADDI (R232): Adds a sign-extended immediate to each vector element. -/
  | vaddi (r : IArgs)
  /-- VCMP (R234): Compares vector elements under condition F and MR.TYPE and writes a predicate per active lane. -/
  | vcmp (r : VcmpArgs)
  /-- PLOG_AND (R235): Predicate AND. -/
  | plogAnd (d : BitVec 3) (a : BitVec 3) (b : BitVec 3)
  /-- PLOG_OR (R235): Predicate OR. -/
  | plogOr (d : BitVec 3) (a : BitVec 3) (b : BitVec 3)
  /-- PLOG_XOR (R235): Predicate XOR. -/
  | plogXor (d : BitVec 3) (a : BitVec 3) (b : BitVec 3)
  /-- PLOG_ANDN (R235): Predicate AND NOT. -/
  | plogAndn (d : BitVec 3) (a : BitVec 3) (b : BitVec 3)
  /-- PLOG_NOT (R235): Predicate NOT. -/
  | plogNot (d : BitVec 3) (a : BitVec 3)
  /-- PLOG_MOV (R235): Predicate move. -/
  | plogMov (d : BitVec 3) (a : BitVec 3)
  /-- FADD (R236): Float add rounded once by RoundTo. -/
  | fadd (r : RArgs)
  /-- FSUB (R236): Float subtract rounded once. -/
  | fsub (r : RArgs)
  /-- FMUL (R236): Float multiply rounded once. -/
  | fmul (r : RArgs)
  /-- FMIN (R236): Float minimum with NaN and signed-zero rules. -/
  | fmin (r : RArgs)
  /-- FMAX (R236): Float maximum with NaN and signed-zero rules. -/
  | fmax (r : RArgs)
  /-- FABS (R236): Clears the sign bit of each float element. -/
  | fabs (r : UArgs)
  /-- FNEG (R236): Flips the sign bit of each float element. -/
  | fneg (r : UArgs)
  /-- FRCP (R238): Float reciprocal within 1 ulp. -/
  | frcp (r : UArgs)
  /-- FRSQ (R238): Float reciprocal square root within 1 ulp. -/
  | frsq (r : UArgs)
  /-- FSQRT (R238): Correctly rounded float square root. -/
  | fsqrt (r : UArgs)
  /-- FEX2 (R238): Float base-2 exponential within 2 ulp. -/
  | fex2 (r : UArgs)
  /-- FLG2 (R238): Float base-2 logarithm within its bound. -/
  | flg2 (r : UArgs)
  /-- FRND (R236): Rounds each float element to an integer in the same type under MR.RND. -/
  | frnd (r : UArgs)
  /-- FDIV (R30): Deprecated Welell 2 float divide executed by microcoded expansion in a W16 team. -/
  | fdiv (r : RArgs)
  /-- FMA (R239): Fused multiply-add rounded once. -/
  | fma (r : QArgs)
  /-- FMS (R239): Fused multiply-subtract rounded once. -/
  | fms (r : QArgs)
  /-- FNMA (R239): Fused negated multiply-add rounded once. -/
  | fnma (r : QArgs)
  /-- FNMS (R239): Fused negated multiply-subtract rounded once. -/
  | fnms (r : QArgs)
  /-- MAD (R233): Integer multiply-add, low bits. -/
  | mad (r : QArgs)
  /-- MADHI (R233): High bits of an integer product plus a third source. -/
  | madhi (r : QArgs)
  /-- MADW (R233): Widening 32x32+64 integer multiply-add into a pair. -/
  | madw (r : QArgs)
  /-- CVT (R240): Converts elements from MR.TYPE into the destination type in F, across one or more registers. -/
  | cvt (t : BitVec 4) (r : UArgs)
  /-- CVTH (R242): Quantises each aligned 16-lane block into a Zalnen group, optionally after a Hadamard transform. -/
  | cvth (h : Bool) (z : BitVec 4) (r : SArgs)
  /-- MMUL (R245): Modular 64-bit multiply modulo QMOD. -/
  | mmul (r : RArgs)
  /-- MADD (R245): Modular 64-bit add. -/
  | madd (r : RArgs)
  /-- MSUB (R245): Modular 64-bit subtract. -/
  | msub (r : RArgs)
  /-- MRED (R245): Reduces a 64-bit value modulo QMOD. -/
  | mred (r : UArgs)
  /-- NTTB (R245): Number-theoretic transform butterfly writing both D and A. -/
  | nttb (r : RArgs)
  /-- MODQ (R244): Sets the group's modulus QMOD from a scalar pair. -/
  | modq (r : SrcArgs)
  /-- SHFI (R251): Shuffle from an indexed lane of the segment. -/
  | shfi (r : RArgs)
  /-- SHUP (R251): Shuffle from the lane b below. -/
  | shup (r : RArgs)
  /-- SHDN (R251): Shuffle from the lane b above. -/
  | shdn (r : RArgs)
  /-- SHXR (R251): Shuffle from the lane at relative index XOR b. -/
  | shxr (r : RArgs)
  /-- VANY (R252): Writes the OR of a predicate over the active lanes of the segment. -/
  | vany (d : BitVec 3) (a : BitVec 3)
  /-- VALL (R252): Writes the AND of a predicate over the active lanes of the segment. -/
  | vall (d : BitVec 3) (a : BitVec 3)
  /-- BALLOT (R252): Writes a 64-bit mask of the lanes whose predicate is true into a register pair. -/
  | ballot (d : BitVec 6) (a : BitVec 3)
  /-- RADD (R254): Integer sum reduction over the segment. -/
  | radd (r : UArgs)
  /-- RMIN (R254): Integer minimum reduction over the segment. -/
  | rmin (r : UArgs)
  /-- RMAX (R254): Integer maximum reduction over the segment. -/
  | rmax (r : UArgs)
  /-- FRADD (R254): Float sum reduction by the canonical tree. -/
  | fradd (r : UArgs)
  /-- FRMIN (R254): Float minimum reduction. -/
  | frmin (r : UArgs)
  /-- FRMAX (R254): Float maximum reduction. -/
  | frmax (r : UArgs)
  /-- SCADD (R255): Inclusive prefix sum over the active lanes. -/
  | scadd (r : UArgs)
  /-- SCADDX (R255): Exclusive prefix sum over the active lanes. -/
  | scaddx (r : UArgs)
  /-- QAPP (R256): Gives each selected lane a distinct slot of a scratchpad queue by one atomic add per segment. -/
  | qapp (d : BitVec 6) (w : BitVec 4) (p : BitVec 3)
  /-- V2S (R258): Copies one lane's vector register into a scalar register. -/
  | v2s (r : SArgs)
  /-- S2V (R258): Broadcasts a scalar register into a vector register of each active lane. -/
  | s2v (r : UArgs)
  /-- SRD (R259): Reads a special register into a vector register, clearing RESL when it is read. -/
  | srd (d : BitVec 6) (n : BitVec 6)
  /-- SWR (R259): Writes MR or EXC from the lowest active lane. -/
  | swr (n : BitVec 6) (r : SrcArgs)
  /-- P2V (R260): Packs a lane's predicates into a vector register. -/
  | p2v (d : BitVec 6)
  /-- V2P (R260): Sets a lane's predicates p1-p7 from a vector register. -/
  | v2p (r : SrcArgs)
  /-- MRS (R160): Reads MR into a scalar register. -/
  | mrs (d : BitVec 6)
  /-- MRW (R160): Writes MR from a scalar register after checking it. -/
  | mrw (r : SrcArgs)
  /-- LD (R289): Per-lane load through a window, including GROUP loads of Zalnen groups. -/
  | ld (r : MemArgs)
  /-- ST (R289): Per-lane store through a window, held in the Hamper where required. -/
  | st (r : MemArgs)
  /-- SLD (R289): Scalar load once per gang. -/
  | sld (r : MemArgs)
  /-- SST (R289): Scalar store once per gang. -/
  | sst (r : MemArgs)
  /-- LDFE (R298): Loads from scratchpad once the granules read are full. -/
  | ldfe (r : LdfeArgs)
  /-- LDFE_CLEAR (R298): Loads from full scratchpad granules and sets them empty in one operation. -/
  | ldfeClear (r : LdfeArgs)
  /-- ATOM_ADD (R301): Atomic add at the home of the location. -/
  | atomAdd (r : AtomArgs)
  /-- ATOM_MIN (R301): Atomic signed minimum. -/
  | atomMin (r : AtomArgs)
  /-- ATOM_MAX (R301): Atomic signed maximum. -/
  | atomMax (r : AtomArgs)
  /-- ATOM_MINU (R301): Atomic unsigned minimum. -/
  | atomMinu (r : AtomArgs)
  /-- ATOM_MAXU (R301): Atomic unsigned maximum. -/
  | atomMaxu (r : AtomArgs)
  /-- ATOM_AND (R301): Atomic AND. -/
  | atomAnd (r : AtomArgs)
  /-- ATOM_OR (R301): Atomic OR. -/
  | atomOr (r : AtomArgs)
  /-- ATOM_XOR (R301): Atomic XOR. -/
  | atomXor (r : AtomArgs)
  /-- ATOM_SWAP (R301): Atomic swap. -/
  | atomSwap (r : AtomArgs)
  /-- ATOM_CAS (R301): Atomic compare-and-swap. -/
  | atomCas (r : AtomArgs)
  /-- ATOM_FADD (R302): Atomic F32 add rounded RNE at the bank ALU. -/
  | atomFadd (r : AtomArgs)
  /-- ATOM_LR (R303): Load-reserved: reads the location and sets the thread's reservation. -/
  | atomLr (r : AtomArgs)
  /-- ATOM_SC (R303): Store-conditional: stores only if the reservation holds, and consumes it. -/
  | atomSc (r : AtomArgs)
  /-- ATOM_LDAQ (R304): Load with acquire at the given scope. -/
  | atomLdaq (r : AtomArgs)
  /-- ATOM_STRL (R304): Store with release at the given scope. -/
  | atomStrl (r : AtomArgs)
  /-- FENCE (R378): Orders the group's accesses with acquire, release or both at a scope. -/
  | fence (scope : BitVec 6) (sem : BitVec 6)
  /-- BAR (R380): Arrives at a barrier and waits for its phase to complete. -/
  | bar (a : BitVec 3)
  /-- ARRIVE (R380): Marks the group arrived at a barrier with release semantics. -/
  | arrive (a : BitVec 3)
  /-- WAITB (R380): Waits for completion of the phase in which the group arrived. -/
  | waitb (a : BitVec 3)
  /-- WIN (R266): Sets a window register from a scalar pair and probes a global frame's translation. -/
  | win (d : BitVec 4) (a : BitVec 6) (k : BitVec 2)
  /-- PREF (R306): Starts making a global range resident in shared memory, signalling a token when done. -/
  | pref (r : PrefArgs)
  /-- PREF_COMPLETION (R306): A PREF finishes and its token count drops. -/
  | prefCompletion (core : Nat) (id : Nat)
  /-- COPY (R311): Checks a copy descriptor, enters range locks, empties destination granules and starts the transfer. -/
  | copy (r : CopyArgs)
  /-- COPY_LANDING (R314): Bytes of a copy land, and each destination granule whose box bytes have all landed is set full. -/
  | copyLanding (core : Nat) (id : Nat)
  /-- COPY_COMPLETION (R314): A copy finishes or stops, releases its range-lock entries and decrements its token. -/
  | copyCompletion (core : Nat) (id : Nat)
  /-- WAITC (R317): Waits until the named tokens are idle and reports the lowest recorded failure. -/
  | waitc (m : BitVec 8)
  /-- MLOOP (R334): Checks a matrix descriptor and hands a command to the core's matrix sequencer. -/
  | mloop (r : MloopArgs)
  /-- COMMAND_START (R335): The sequencer starts the oldest command whose predecessors have retired. -/
  | commandStart (core : Nat) (slot : Nat) (id : Nat)
  /-- TILE_STEP (R336): One K-step of one tile is summed exactly and added to the accumulator with one rounding. -/
  | tileStep (core : Nat) (slot : Nat) (id : Nat)
  /-- COMMAND_RETIRE (R338): A matrix command retires, ORing its flags into EXC or recording a failure in the group's slot. -/
  | commandRetire (core : Nat) (slot : Nat) (id : Nat)
  /-- MWAIT (R339): Waits for matrix commands to retire and reports a recorded failure. -/
  | mwait (r : SrcArgs)
  /-- AALLOC (R326): Allocates a zeroed run of accumulator banks in bands, or returns 0xFFFF_FFFF. -/
  | aalloc (r : SArgs)
  /-- AFREE (R328): Frees an allocation held by the group. -/
  | afree (r : SrcArgs)
  /-- ADRAIN (R327): Claims a band and reads tile rows into vector registers after earlier commands on the bank. -/
  | adrain (r : SArgs)
  /-- AZERO (R328): Sets allocated accumulator banks to zero. -/
  | azero (r : Src2Args)
  /-- AQUERY (R329): Reports free banks or the allocation state of a bank. -/
  | aquery (r : UArgs)
  /-- BKLD (R360): Loads a microword image into the stores of a range of bank units. -/
  | bkld (r : Src2Args)
  /-- BKRUN (R361): Writes back declared rows and starts bank-unit contexts from a parameter block. -/
  | bkrun (r : Src2Args)
  /-- BKWAIT (R363): Waits for bank-unit contexts to stop or raise flags, then reports status. -/
  | bkwait (r : SArgs)
  /-- BKRD (R364): Reads a bank unit's RESULT slot into a vector register. -/
  | bkrd (r : SArgs)
  /-- BKST (R362): Fills the mailbox of each bank unit in a range with a column formed from a vector. -/
  | bkst (r : Src2Args)
  /-- SPAWN (R77): Reserves Basket slots, counts them in the graph and writes one record per selected lane. -/
  | spawn (d : BitVec 6) (a : BitVec 6) (p : BitVec 3)
  /-- POSTR (R101): Releases the group's writes and swaps a value into the launch's RESULT. -/
  | postr (a : BitVec 6)
  /-- POSTS (R101): Posts a true shape into the shape word once, returning the old word. -/
  | posts (d : BitVec 6) (w : BitVec 4) (b : BitVec 6)
  /-- DISP (R58): Starts team x of a launch using the agent's held reservation. -/
  | disp (r : SysxArgs)
  /-- DISP_RESERVE (R58): DISP with 0xFFFF_FFFF reserves room for one team of a launch. -/
  | dispReserve (r : SysxArgs)
  /-- DISP_RELEASE (R58): DISP with 0xFFFF_FFFE drops the held reservation. -/
  | dispRelease (r : SysxArgs)
  /-- STARTTEAM (R58): After the required segments land, a dispatched team begins execution. -/
  | startTeam (core : Nat) (slot : Nat)
  /-- SAVEG (R410): Stops a team, waits for its engines, writes its image and frees its resources. -/
  | saveg (r : SysxArgs)
  /-- RESTG (R414): Rebuilds a saved team from its image, possibly at a narrower grant, and refetches its slots. -/
  | restg (r : SysxArgs)
  /-- TLBINV (R278): Drops covered translations of a function everywhere and waits for every core to acknowledge. -/
  | tlbinv (r : SysxArgs)
  /-- SHOOTDOWN_ACK (R279): A core acknowledges a shootdown once covered accesses and engine operations have finished. -/
  | shootdownAck (core : Nat) (f : Nat)
  /-- CSRRD (R390): Reads a CSR selected by number, function and context. -/
  | csrrd (d : BitVec 6) (a : BitVec 6)
  /-- CSRWR (R390): Writes a CSR selected by number, function and context. -/
  | csrwr (a : BitVec 6) (b : BitVec 6)
  /-- WAITEV (R57): Sleeps until a shared-memory word changes or an agent event is pending. -/
  | waitev (r : SysxArgs)
  /-- HOSTIRQ (R59): Makes the agent's writes visible at SYSTEM scope and sends an MSI-X message. -/
  | hostirq (a : BitVec 6)
  /-- SQUASH (R107): Ends a provisional team, discarding its held stores and freeing its resources. -/
  | squash (r : SysxArgs)
  /-- CONFIRM (R107): Clears PROV, commits the team's held lines and resumes its stalled groups. -/
  | confirm (r : SysxArgs)
  /-- RESULT_WRITE (R173): A load, atomic or engine result arrives, is written and clears the register's pending bit. -/
  | resultWrite (ref : CtxRef) (seq : Nat)
  /-- TEAM_END (R451): A team quiesces, reports deferred causes, commits or discards held stores, writes back, frees resources and raises RETIRE. -/
  | teamEnd (core : Nat) (slot : Nat)
  /-- TAIL (R49): The host publishes queue entries by advancing TAIL, waking the function's agents. -/
  | tail (f : Nat) (q : Nat) (value : Word)
  /-- ADMISSION (R53): An agent takes a launch entry, checks the record and puts it on the run board or ends it. -/
  | admission (core : Nat) (f : Nat) (q : Nat)
  /-- LOAD_RECORD (R50): An agent takes a load entry, checks the kernel and writes the refusal record. -/
  | loadRecord (core : Nat) (f : Nat) (q : Nat)
  /-- KICK (R46): A write to a queue's KICK word wakes every agent of the function. -/
  | kick (f : Nat) (q : Nat)
  /-- CLAIM (R60): An agent with room claims a ticket from NEXT and dispatches or gives it back. -/
  | claim (core : Nat) (f : Nat) (rec : Nat)
  /-- RETIRE (R453): The agent takes RETIRE and counts the ended team towards its launch or graph. -/
  | retire (core : Nat) (slot : Nat)
  /-- RESTART (R283): Once a retry finds the page, an agent with room restarts an aborted team from its entry. -/
  | restart (core : Nat) (f : Nat) (ticket : Nat)
  /-- EF0 (R399): Writing 0 to EF0 dismisses the oldest engine fault record. -/
  | ef0 (core : Nat)
  /-- SETTLEMENT (R103): An agent settles a speculative launch: updates the site, swaps NTEAM, adds a tail and runs CloseCheck. -/
  | settlement (core : Nat) (f : Nat) (rec : Nat)
  /-- BATCHREADY (R81): An agent takes BatchReady and dispatches ready batches of a Basket in order. -/
  | batchReady (core : Nat) (f : Nat) (node : Nat)
  /-- BASKETOPENED (R81): An agent takes BasketOpened and arms the Basket timer. -/
  | basketOpened (core : Nat) (f : Nat) (node : Nat)
  /-- LAPSE (R81): A Basket timer lapses and the agent closes the open batch short. -/
  | lapse (core : Nat) (f : Nat) (node : Nat)
  /-- GRAPHIDLE (R83): An agent takes GraphIdle, ends the graph and releases its successor. -/
  | graphIdle (core : Nat) (f : Nat) (graph : Nat)
  /-- SAVENOW (R407): DRAINLIM lapses on a draining launch and agents save its resident teams. -/
  | saveNow (core : Nat) (f : Nat) (rec : Nat)
  /-- WORLD_SWITCH (R418): After WSCTL GO and KICK, agents save the outgoing function's teams, switch counters and restore the incoming world. -/
  | worldSwitch (octet : Nat)
  /-- SWITCH_ABANDON (R418): GO cleared while NOROOM is set abandons the switch and restores the saved teams. -/
  | switchAbandon (octet : Nat)
  /-- TINVCTL (R280): A write to TINVCTL requests a shootdown that an agent serves and counts in TINVDONE. -/
  | tinvctl (f : Nat) (value : Word)
  /-- WATCHHI (R401): A write to WATCHHI sets the watch bit of the named shared-memory line. -/
  | watchhi (core : Nat) (value : Word)
  /-- AGENTSTOP (R398): A PF write of 1 restarts a stopped agent at its firmware entry. -/
  | agentstop (core : Nat)
  /-- NEXT (R351): A bank-unit microword of kind NEXT runs its slots and advances the PC. -/
  | next (m : Micro)
  /-- LOOP (R351): A LOOP microword runs its slots and loads a loop counter and start. -/
  | loop (m : Micro)
  /-- CLOSE (R351): A CLOSE microword decrements a loop counter and branches back while it is nonzero. -/
  | close (m : Micro)
  /-- HALT (R351): A HALT microword runs its slots and sets the unit HALTED. -/
  | halt (m : Micro)
  /-- WAITBC (R351): A WAITBC microword takes the mailbox into an o-register and runs its slots. -/
  | waitbc (m : Micro)
  /-- FLAG (R351): A FLAG microword runs its slots and sets a flag bit as a release. -/
  | flag (m : Micro)
  /-- CORRECTION (R356): The stack controller corrects a block with one or two symbol errors and returns it to the stalled unit. -/
  | correction (unit : Nat)
  /-- CONTEXT_SWITCH (R368): A unit serving several logical banks switches context after 1,024 column cycles or at a boundary event. -/
  | contextSwitch (bank : Nat)
  /-- REMOTE_ACCESS (R285): A load, store or atomic from a partner device arrives over the fabric and is checked against the domain table. -/
  | remoteAccess (req : RemoteReq)
  /-- LINK_START (R444): Linked Larders attest each other and derive fabric keys at link start. -/
  | linkStart (domid : Nat)
  /-- POWER_ON (R464): Power-on or fundamental reset runs the self-test and enters service or the safe state. -/
  | powerOn (selfTest : List Nat)
  /-- THROTTLE (R469): A domain's sensors move it one throttle step up or down, or to stopped. -/
  | throttle (domain : Nat) (level : Nat)
  /-- THERMAL_TRIP (R471): A sensor at 115 °C asserts thermal trip and removes the core supplies. -/
  | thermalTrip (sensor : Nat)
  /-- CSR_WRITE (R423): A write to a register that has no behaviour of its own stores the value subject to its write rules. -/
  | csrWrite (bar : BarFunc) (n : Nat) (value : Word)
  /-- HOST_WRITE (R52): A host memory write through a function's BAR changes device memory, such as a record's FLAGS[3] or SHAPEV, a queue header's QSTATUS, BASE or VECTOR, or a watched line. -/
  | hostWrite (f : Nat) (addr : Nat) (bytes : List Byte)
  /-- EVICTION (R305): The hardware evicts an L1 line, a TLB entry or a resident shared-memory line, writing back dirty bytes to the home or to stack memory. -/
  | eviction (what : Evict)
  /-- SOFT_ERROR (R356): Symbols of a stored 72-byte codeword change of themselves, to be found at the next read of the block. -/
  | softError (addr : Nat) (symbols : List (Nat × Nat))
  /-- SCRUB_COMPLETE (R458): The scrub of a disabled function's row blocks finishes, SCRUBST.BUSY clears and a pending FLR completes. -/
  | scrubComplete (f : Nat)
  /-- LINK_DOWN (R286): An Oxelo link to a partner device is lost, so remote accesses can no longer reach it and fail with REMOTE_FAIL. -/
  | linkDown (domid : Nat)
  /-- REMOTE_STORE_ACK (R386): The acknowledgement or refusal of an earlier remote or host store arrives, releasing waiting releases or marking the team to fail with REMOTE_FAIL. -/
  | remoteStoreAck (core : Nat) (ok : Bool)
  /-- UNASSIGNED_ENCODING (R163): A gang issues a word whose major or minor is unassigned, such as the fill word, and it traps at decode with ILLEGAL_MAJOR or ILLEGAL_MINOR. -/
  | unassignedEncoding (w : Word)
  /-- TGT (R154): A T word reached other than as a BRX target word traps at decode with TGT_EXECUTED. -/
  | tgt (w : Word)
  /-- NOP (R202): Does nothing except take its issue cycle. -/
  | nop
  /-- EXIT (R201): Finishes the threads of the active lanes and tests every set join slot for completion; in team-scalar mode it ends the team. -/
  | exit
  /-- YIELD (R202): Ends the current gang's streak and does nothing more. -/
  | yield
  /-- RET (R200): Returns each active lane through the topmost return-stack entry of its quad that holds the lane. -/
  | ret
  /-- BKPT (R203): Raises BREAKPOINT once for the gang when some lane is active. -/
  | bkpt
  /-- RCOMMIT (R204): Commits the team's kind-H Hamper entries and starts a new restart region. -/
  | rcommit
  /-- FAIL (R393): RTT with action FAIL ends the team, discards its frames and frees its resources. -/
  | fail
  /-- RESUME (R392): RTT with action RESUME clears the frame, and the stopped group issues again with the trapping gang at RPC. -/
  | resume
  /-- HANDLER (R396): RTT with action HANDLER enters the user trap handler with the frame in s56-s63. -/
  | handler
  /-- HOLD (R392): RTT with action HOLD marks the frame HELD and leaves the group stopped. -/
  | hold
  /-- STEP (R181): RTT with action STEP clears the frame and makes the group perform one debug step, which ends with a STEP frame. -/
  | step
  /-- WAITPAGE (R392): RTT with action WAITPAGE parks a STALL team's faulting group until a KICK makes it retry. -/
  | waitPage
  /-- ABORT (R283): RTT with action ABORT aborts a RESTART team, discards its held stores and frees its resources for a later requeue. -/
  | abort
  /-- HANDLER_RETURN (R397): trap 15 inside a handler restores MR and s56-s63 and continues at s58. -/
  | handlerReturn
  /-- DBGREQ_STOP (R405): The agent stops the named group with DEBUG_HALT through DBGSTOP. -/
  | dbgreqStop
  /-- DBGREQ_RESUME (R405): The agent resumes the named held group. -/
  | dbgreqResume
  /-- DBGREQ_STEP (R405): The agent steps the named held group. -/
  | dbgreqStep
  /-- DBGREQ_FAIL (R405): The agent fails the named group's team. -/
  | dbgreqFail
  /-- DBGREQ_READ_FRAME (R405): The agent copies the context's frame into DBGFRAME. -/
  | dbgreqReadFrame
  /-- MAPDATA_BIND (R432): A PF MAPDATA write with V = 1 binds a physical row block to the function. -/
  | mapdataBind
  /-- MAPDATA_SCRUB (R432): A PF MAPDATA write with V = 0 scrubs the entry's row block. -/
  | mapdataScrub
  /-- MIGCMD_COPY (R439): Copies a row block's rows, or its dirty rows, to the destination and reports DIRTY. -/
  | migcmdCopy
  /-- MIGCMD_FINAL (R439): Pauses contexts, holds accesses, copies dirty rows, switches the map entry and moves contexts. -/
  | migcmdFinal
  /-- MIGCMD_RELEASE (R439): Scrubs the moved source row block. -/
  | migcmdRelease
  /-- MIGCMD_COMMIT (R439): Ends the amendment, updates measurements and sends AMEND_DONE. -/
  | migcmdCommit
  /-- AMEND_PROPOSE (R437): The Larder checks an amendment proposal and answers with an id and digest or a refusal code. -/
  | amendPropose
  /-- AMEND_ACCEPT (R437): The tenant accepts a proposal, which the Larder rechecks and activates by binding destinations. -/
  | amendAccept
  /-- AMEND_REJECT (R437): The tenant rejects a pending proposal, which is discarded. -/
  | amendReject
  /-- AMEND_ABORT (R440): The host aborts a pending or active amendment. -/
  | amendAbort
  /-- AMEND_STATUS (R439): The tenant reads the outcome of an amendment. -/
  | amendStatus
  /-- LOCK_INTERFACE_REQUEST (R435): Locks a VF: new keys, rebinding of its row blocks and fixed slice registers. -/
  | lockInterface
  /-- START_INTERFACE_REQUEST (R435): Moves a locked VF to RUN. -/
  | startInterface
  /-- STOP_INTERFACE_REQUEST (R435): Fails the VF's teams, rebinds its row blocks, zeroes its ways and installs new keys. -/
  | stopInterface
  /-- GET_VERSION (R433): SPDM version request answered by the Larder. -/
  | getVersion
  /-- GET_CAPABILITIES (R433): SPDM capabilities request. -/
  | getCapabilities
  /-- NEGOTIATE_ALGORITHMS (R433): SPDM algorithm negotiation. -/
  | negotiateAlgorithms
  /-- GET_DIGESTS (R433): SPDM certificate digests request. -/
  | getDigests
  /-- GET_CERTIFICATE (R433): SPDM certificate chain request. -/
  | getCertificate
  /-- CHALLENGE (R433): SPDM challenge answered with a signature of the identity key. -/
  | challenge
  /-- GET_MEASUREMENTS (R434): Returns the signed measurement blocks for the requesting function. -/
  | getMeasurements
  /-- KEY_EXCHANGE (R433): Starts a secured SPDM session. -/
  | keyExchange
  /-- FINISH (R433): Completes a secured SPDM session handshake. -/
  | finish
  /-- HEARTBEAT (R433): Keeps a secured session alive. -/
  | heartbeat
  /-- KEY_UPDATE (R433): Updates the keys of a secured session. -/
  | keyUpdate
  /-- END_SESSION (R433): Ends a secured SPDM session. -/
  | endSession
  /-- FUNCTION_ENABLE (R427): The PF enables a function and the Larder installs fresh keys in its slots. -/
  | functionEnable
  /-- FUNCTION_DISABLE (R458): SR-IOV clear or a function-level reset stops and scrubs the function and erases its keys. -/
  | functionDisable
  /-- POWER_LOSS (R466): The package supply is removed, losing all state until the next power-on. -/
  | powerLoss
  /-- IDE_INTEGRITY_FAILURE (R443): An IDE integrity failure on a function's stream puts that function into ERROR. -/
  | ideIntegrityFailure
  /-- PARITY_ERROR (R443): A parity error in a function's key slot or map storage puts that function into ERROR. -/
  | parityError
  /-- TDISP_PROTOCOL_VIOLATION (R443): A TDISP message that violates the protocol puts its function into ERROR. -/
  | tdispProtocolViolation
  /-- LARDER_ERROR (R440): A Larder error ends an active amendment at once, keeping moved row blocks and scrubbing the rest. -/
  | larderError
  deriving DecidableEq, Repr

end Sys2Proof
end

