-- ==== Sys2Proof/WellFormed.lean ====
section
/-! DEFINITION. WellFormed.lean: what an encoding must satisfy beyond the widths of its fields (R146, R147, R150, R159,
R162 and the encoding paragraph of each instruction): alignment of pairs and quadruples, field values that are reserved. -/

namespace Sys2Proof

/-- The register number begins a pair (R150). -/
def evenReg (r : BitVec 6) : Bool := r.toNat % 2 == 0

/-- The register number begins a quadruple (R150). -/
def quadReg (r : BitVec 6) : Bool := r.toNat % 4 == 0

/-- The alignment a memory size asks of its data register (R288): DWORD a pair, QWORD a quadruple. -/
def memAligned (sz : BitVec 3) (d : BitVec 6) : Bool :=
  if sz == 5 then evenReg d else if sz == 6 then quadReg d else true

/-- The alignment an atomic asks of its data register (R299, R301): DWORD a pair, CAS one step wider. -/
def atomAligned (cas : Bool) (sz : BitVec 2) (d : BitVec 6) : Bool :=
  if sz == 1 || sz == 3 then (if cas then quadReg d else evenReg d) else (if cas then evenReg d else true)

/-- SC 6 and 7 are reserved (R147). -/
def atomWf (cas : Bool) (r : AtomArgs) : Bool := r.sc.toNat < 6 && atomAligned cas r.sz r.d

/-- The IMM bits a MODE field leaves unused are reserved, and D 6 to 63 is reserved (R159). -/
def modeWf (d : BitVec 6) (i : BitVec 14) : Bool :=
  match d.toNat with
  | 0 => i.toNat < 16
  | 1 => i.toNat < 8
  | 2 => i.toNat < 4
  | 3 => i.toNat < 2
  | 4 => i.toNat < 16
  | 5 => true
  | _ => false

/-- Each selector of BRX beyond N is zero (R149). -/
def brxWf (b : BrxArgs) : Bool :=
  let z : BrxSel → Bool := fun s => !s.neg && s.p == 0
  (1 ≤ b.n.toNat || z b.s1) && (2 ≤ b.n.toNat || z b.s2) && (3 ≤ b.n.toNat || z b.s3)

/-- The well-formed instructions: those whose word every field rule of the spec admits. Device, agent and bank-unit
events have no encoding, so nothing is asked of them, and the two rows for words that trap at decode hold any word
of their kind (stated by the decoder, R154, R163). -/
def wellFormed : Instr → Bool
  | .add64 r => evenReg r.d && evenReg r.a && evenReg r.b
  | .sub64 r => evenReg r.d && evenReg r.a && evenReg r.b
  | .scmp r => r.c.toNat < 10
  | .vcmp r => r.c.toNat < 12
  | .madw r => evenReg r.d && evenReg r.c
  | .cvt t _ => t.toNat < 15
  | .cvth _ z _ => z == 10 || z == 11 || z == 12
  | .mmul r => evenReg r.d && evenReg r.a && evenReg r.b
  | .madd r => evenReg r.d && evenReg r.a && evenReg r.b
  | .msub r => evenReg r.d && evenReg r.a && evenReg r.b
  | .mred r => evenReg r.d && evenReg r.a
  | .nttb r => evenReg r.d && evenReg r.a && evenReg r.b && r.d != r.a
  | .modq r => evenReg r.a
  | .ballot d _ => evenReg d
  | .srd d n => n.toNat < 18 && (n.toNat < 16 || evenReg d)
  | .swr n _ => n.toNat < 18
  | .mode d i => modeWf d i
  | .brx b ts => brxWf b && ts.length == b.n.toNat + 2
  | .cfetch _ a => evenReg a
  | .cfetchWait _ a => evenReg a
  | .win _ a _ => evenReg a
  | .ld r => memAligned r.sz r.d
  | .st r => r.sz != 1 && r.sz != 3 && memAligned r.sz r.d
  | .sld r => r.sz != 7 && memAligned r.sz r.d
  | .sst r => r.sz != 1 && r.sz != 3 && r.sz != 7 && memAligned r.sz r.d
  | .ldfe r => r.sz != 3 && memAligned (4 + r.sz.setWidth 3) r.d
  | .ldfeClear r => r.sz != 3 && memAligned (4 + r.sz.setWidth 3) r.d
  | .atomAdd r => atomWf false r
  | .atomMin r => atomWf false r
  | .atomMax r => atomWf false r
  | .atomMinu r => atomWf false r
  | .atomMaxu r => atomWf false r
  | .atomAnd r => atomWf false r
  | .atomOr r => atomWf false r
  | .atomXor r => atomWf false r
  | .atomSwap r => atomWf false r
  | .atomCas r => atomWf true r
  | .atomFadd r => atomWf false r && (r.sz == 0 || r.sz == 2)
  | .atomLr r => atomWf false r
  | .atomSc r => atomWf false r
  | .atomLdaq r => atomWf false r
  | .atomStrl r => atomWf false r
  | .fence s m => s.toNat < 6 && 1 ≤ m.toNat && m.toNat < 4
  | .disp r => evenReg r.a
  | .dispReserve r => evenReg r.a
  | .dispRelease r => evenReg r.a
  | .saveg r => evenReg r.a
  | .restg r => evenReg r.a
  | .tlbinv r => evenReg r.a
  | .waitev r => evenReg r.a
  | .squash r => evenReg r.a
  | .confirm r => evenReg r.a
  | .nop | .exit | .yield | .ret | .join _ | .leave _ | .bkpt | .rcommit | .jmpr _ | .fail | .resume | .handler
  | .hold | .step | .waitPage | .abort | .br _ | .tok _ _ | .jmpf _ | .call _ | .setw _ | .formGroups _ _
  | .cland _ | .landed _ _ | .movl _ _ | .movlScalar _ _ | .trap _ | .handlerReturn | .saluAdd _ | .saluSub _
  | .saluMul _ | .saluMulhi _ | .mulhu _ | .saluAnd _ | .saluOr _ | .saluXor _ | .saluAndn _ | .saluShl _
  | .saluShr _ | .saluSar _ | .saluMin _ | .saluMax _ | .minu _ | .maxu _ | .saluClz _ | .saluPopc _ | .saluBrev _
  | .saluMov _ | .saddi _ | .sli _ _ | .valuAdd _ | .valuSub _ | .valuMul _ | .valuMulhi _ | .valuMin _
  | .valuMax _ | .valuAnd _ | .valuOr _ | .valuXor _ | .valuAndn _ | .valuShl _ | .valuShr _ | .valuSar _ | .rotl _
  | .valuClz _ | .valuPopc _ | .valuBrev _ | .abs _ | .neg _ | .valuMov _ | .sel _ | .bfe _ | .bfi _ | .addsat _
  | .subsat _ | .div _ | .rem _ | .vaddi _ | .plogAnd _ _ _ | .plogOr _ _ _ | .plogXor _ _ _ | .plogAndn _ _ _
  | .plogNot _ _ | .plogMov _ _ | .fadd _ | .fsub _ | .fmul _ | .fmin _ | .fmax _ | .fabs _ | .fneg _ | .frcp _
  | .frsq _ | .fsqrt _ | .fex2 _ | .flg2 _ | .frnd _ | .fdiv _ | .fma _ | .fms _ | .fnma _ | .fnms _ | .mad _
  | .madhi _ | .shfi _ | .shup _ | .shdn _ | .shxr _ | .vany _ _ | .vall _ _ | .radd _ | .rmin _ | .rmax _
  | .fradd _ | .frmin _ | .frmax _ | .scadd _ | .scaddx _ | .qapp _ _ _ | .v2s _ | .s2v _ | .p2v _ | .v2p _
  | .mrs _ | .mrw _ | .bar _ | .arrive _ | .waitb _ | .pref _ | .prefCompletion _ _ | .copy _ | .copyLanding _ _
  | .copyCompletion _ _ | .waitc _ | .mloop _ | .commandStart _ _ _ | .tileStep _ _ _ | .commandRetire _ _ _
  | .mwait _ | .aalloc _ | .afree _ | .adrain _ | .azero _ | .aquery _ | .bkld _ | .bkrun _ | .bkwait _ | .bkrd _
  | .bkst _ | .spawn _ _ _ | .postr _ | .posts _ _ _ | .startTeam _ _ | .shootdownAck _ _ | .csrrd _ _ | .csrwr _ _
  | .hostirq _ | .resultWrite _ _ | .teamEnd _ _ | .tail _ _ _ | .admission _ _ _ | .loadRecord _ _ _ | .kick _ _
  | .claim _ _ _ | .retire _ _ | .restart _ _ _ | .ef0 _ | .settlement _ _ _ | .batchReady _ _ _
  | .basketOpened _ _ _ | .lapse _ _ _ | .graphIdle _ _ _ | .saveNow _ _ _ | .worldSwitch _ | .switchAbandon _
  | .tinvctl _ _ | .watchhi _ _ | .agentstop _ | .dbgreqStop | .dbgreqResume | .dbgreqStep | .dbgreqFail
  | .dbgreqReadFrame | .next _ | .loop _ | .close _ | .halt _ | .waitbc _ | .flag _ | .correction _
  | .contextSwitch _ | .mapdataBind | .mapdataScrub | .migcmdCopy | .migcmdFinal | .migcmdRelease | .migcmdCommit
  | .amendPropose | .amendAccept | .amendReject | .amendAbort | .amendStatus | .lockInterface | .startInterface
  | .stopInterface | .getVersion | .getCapabilities | .negotiateAlgorithms | .getDigests | .getCertificate
  | .challenge | .getMeasurements | .keyExchange | .finish | .heartbeat | .keyUpdate | .endSession
  | .functionEnable | .functionDisable | .remoteAccess _ | .linkStart _ | .powerOn _ | .throttle _ _
  | .thermalTrip _ | .csrWrite _ _ _ | .hostWrite _ _ _ | .eviction _ | .softError _ _ | .scrubComplete _
  | .powerLoss | .linkDown _ | .remoteStoreAck _ _ | .ideIntegrityFailure | .parityError | .tdispProtocolViolation
  | .larderError | .unassignedEncoding _ | .tgt _ => true

end Sys2Proof
end

