-- ==== Sys2Proof/Decode.lean ====
section
/-! DEFINITION. Decode.lean: the formats and the opcode map of chapter 08 (R140 to R165), the microword of R350, and the
encoder written from the same tables. Decoding is total; it reads fields only, so the profile, privilege and register-count
causes of R164 and R165 belong to the issue of the word (Machine). -/

namespace Sys2Proof

/-- Why a word has no instruction beside the two rows that trap at decode (`unassignedEncoding`, `tgt`). -/
inductive DecodeError where
  /-- a nonzero reserved field, a misaligned pair or quadruple, a reserved value (R150, R165 step 3): RESERVED_FIELD -/
  | reservedField
  /-- no word at all was given -/
  | noWord
  deriving DecidableEq, Repr

abbrev Decoded := Except DecodeError Instr

/-! ## Fields -/

/-- Bit `i` of a word, and of a microword. -/
def wordBit (w : Word) (i : Nat) : Bool := w.toNat / 2 ^ i % 2 == 1
def wideBit (w : BitVec 64) (i : Nat) : Bool := w.toNat / 2 ^ i % 2 == 1


def fM (w : Word) : BitVec 6 := w.extractLsb' 26 6
def fF (w : Word) : BitVec 5 := w.extractLsb' 21 5
def fD (w : Word) : BitVec 6 := w.extractLsb' 15 6
def fA (w : Word) : BitVec 6 := w.extractLsb' 9 6
def fB (w : Word) : BitVec 6 := w.extractLsb' 3 6
def fQA (w : Word) : Bool := w.toNat / 4 % 2 == 1
def fQB (w : Word) : Bool := w.toNat / 2 % 2 == 1
def fX (w : Word) : Bool := w.toNat % 2 == 1
def qF (w : Word) : BitVec 2 := w.extractLsb' 24 2
def qD (w : Word) : BitVec 6 := w.extractLsb' 18 6
def qA (w : Word) : BitVec 6 := w.extractLsb' 12 6
def qB (w : Word) : BitVec 6 := w.extractLsb' 6 6
def qC (w : Word) : BitVec 6 := w.extractLsb' 0 6
def iD (w : Word) : BitVec 6 := w.extractLsb' 20 6
def iA (w : Word) : BitVec 6 := w.extractLsb' 14 6
def iImm (w : Word) : BitVec 14 := w.extractLsb' 0 14

/-- The low three bits of a predicate, token, join-slot or barrier field (R150). -/
def lo3 (r : BitVec 6) : BitVec 3 := r.extractLsb' 0 3
/-- The reserved part of such a field. -/
def hi3 (r : BitVec 6) : BitVec 3 := r.extractLsb' 3 3
/-- A three-bit field written into a register field. -/
def p3 (r : BitVec 3) : BitVec 6 := r.setWidth 6
/-- A window number written into a register field. -/
def p4 (r : BitVec 4) : BitVec 6 := r.setWidth 6
/-- A register number that is a multiple of 8, from its upper three bits. -/
def up8 (r : BitVec 3) : BitVec 6 := BitVec.ofNat 6 (r.toNat * 8)
/-- The window number in a register field, and its reserved part (R150). -/
def lo4 (r : BitVec 6) : BitVec 4 := r.extractLsb' 0 4
def hi2 (r : BitVec 6) : BitVec 2 := r.extractLsb' 4 2

/-! ## Packing: the formats of R142 to R149 -/

def packR (m : BitVec 6) (f : BitVec 5) (d a b : BitVec 6) (qa qb x : Bool) : Word :=
  BitVec.ofNat 32 (m.toNat * 0x4000000 + f.toNat * 0x200000 + d.toNat * 0x8000 + a.toNat * 0x200 + b.toNat * 0x8 +
    qa.toNat * 4 + qb.toNat * 2 + x.toNat)
def packQ (m : BitVec 6) (f : BitVec 2) (d a b c : BitVec 6) : Word :=
  BitVec.ofNat 32 (m.toNat * 0x4000000 + f.toNat * 0x1000000 + d.toNat * 0x40000 + a.toNat * 0x1000 + b.toNat * 0x40 + c.toNat)
def packI (m d a : BitVec 6) (imm : BitVec 14) : Word :=
  BitVec.ofNat 32 (m.toNat * 0x4000000 + d.toNat * 0x100000 + a.toNat * 0x4000 + imm.toNat)
def packJ (m : BitVec 6) (imm : BitVec 26) : Word := BitVec.ofNat 32 (m.toNat * 0x4000000 + imm.toNat)
def packM (m : BitVec 6) (sz : BitVec 3) (d a : BitVec 6) (w : BitVec 4) (off : BitVec 7) : Word :=
  BitVec.ofNat 32 (m.toNat * 0x4000000 + sz.toNat * 0x800000 + d.toNat * 0x20000 + a.toNat * 0x800 + w.toNat * 0x80 + off.toNat)
def packA (op : BitVec 5) (d a : BitVec 6) (w : BitVec 4) (sc : BitVec 3) (sz : BitVec 2) : Word :=
  BitVec.ofNat 32 (41 * 0x4000000 + op.toNat * 0x200000 + d.toNat * 0x8000 + a.toNat * 0x200 + w.toNat * 0x20 + sc.toNat * 4 + sz.toNat)
def packSel (s : BrxSel) : BitVec 4 := BitVec.ofNat 4 (s.neg.toNat * 8 + s.p.toNat)
def packX (b : BrxArgs) : Word :=
  BitVec.ofNat 32 (2 * 0x4000000 + (packSel b.s0).toNat * 0x400000 + (packSel b.s1).toNat * 0x40000 +
    (packSel b.s2).toNat * 0x4000 + (packSel b.s3).toNat * 0x400 + b.n.toNat * 0x100)

/-! ## Unpacking: each helper refuses the reserved fields of its format -/

/-- Answers `i` unless some reserved field is nonzero. -/
def reservedUnless (ok : Bool) (i : Instr) : Decoded := if ok then .ok i else .error .reservedField

def asN (w : Word) (i : Instr) : Decoded :=
  reservedUnless (fD w == 0 && fA w == 0 && fB w == 0 && !fQA w && !fQB w && !fX w) i
def asJ3 (w : Word) (k : BitVec 3 → Instr) : Decoded :=
  reservedUnless (fD w == 0 && hi3 (fA w) == 0 && fB w == 0 && !fQA w && !fQB w && !fX w) (k (lo3 (fA w)))
def asA (w : Word) (k : SrcArgs → Instr) : Decoded :=
  reservedUnless (fD w == 0 && fB w == 0 && !fQB w && !fX w) (k ⟨fA w, fQA w⟩)
def asS (w : Word) (k : SArgs → Instr) : Decoded :=
  reservedUnless (!fX w) (k ⟨fD w, fA w, fB w, fQA w, fQB w⟩)
def asU (w : Word) (k : UArgs → Instr) : Decoded :=
  reservedUnless (fB w == 0 && !fQB w && !fX w) (k ⟨fD w, fA w, fQA w⟩)
def asR (w : Word) (k : RArgs → Instr) : Decoded := .ok (k ⟨fD w, fA w, fB w, fQA w, fQB w, fX w⟩)
def asAB (w : Word) (k : Src2Args → Instr) : Decoded :=
  reservedUnless (fD w == 0 && !fX w) (k ⟨fA w, fB w, fQA w, fQB w⟩)
def asP (w : Word) (k : BitVec 3 → BitVec 3 → BitVec 3 → Instr) : Decoded :=
  reservedUnless (hi3 (fD w) == 0 && hi3 (fA w) == 0 && hi3 (fB w) == 0 && !fQA w && !fQB w && !fX w)
    (k (lo3 (fD w)) (lo3 (fA w)) (lo3 (fB w)))
def asPU (w : Word) (k : BitVec 3 → BitVec 3 → Instr) : Decoded :=
  reservedUnless (hi3 (fD w) == 0 && hi3 (fA w) == 0 && fB w == 0 && !fQA w && !fQB w && !fX w)
    (k (lo3 (fD w)) (lo3 (fA w)))
def asBL (w : Word) (k : BitVec 6 → BitVec 3 → Instr) : Decoded :=
  reservedUnless (hi3 (fA w) == 0 && fB w == 0 && !fQA w && !fQB w && !fX w) (k (fD w) (lo3 (fA w)))
def asQA (w : Word) (k : BitVec 6 → BitVec 4 → BitVec 3 → Instr) : Decoded :=
  reservedUnless (hi2 (fA w) == 0 && hi3 (fB w) == 0 && !fQA w && !fQB w && !fX w)
    (k (fD w) (lo4 (fA w)) (lo3 (fB w)))
def asSRD (w : Word) (k : BitVec 6 → BitVec 6 → Instr) : Decoded :=
  reservedUnless (fA w == 0 && !fQA w && !fQB w && !fX w) (k (fD w) (fB w))
def asSWR (w : Word) (k : BitVec 6 → SrcArgs → Instr) : Decoded :=
  reservedUnless (fD w == 0 && !fQB w && !fX w) (k (fB w) ⟨fA w, fQA w⟩)
def asD (w : Word) (k : BitVec 6 → Instr) : Decoded :=
  reservedUnless (fA w == 0 && fB w == 0 && !fQA w && !fQB w && !fX w) (k (fD w))
def asFE (w : Word) (k : BitVec 6 → BitVec 6 → Instr) : Decoded :=
  reservedUnless (fD w == 0 && !fQA w && !fQB w && !fX w) (k (fA w) (fB w))
def asPF (w : Word) (k : PrefArgs → Instr) : Decoded :=
  reservedUnless (hi3 (fD w) == 0 && hi2 (fA w) == 0 && !fQA w && !fX w) (k ⟨lo3 (fD w), lo4 (fA w), fB w, fQB w⟩)
def asCP (w : Word) (k : CopyArgs → Instr) : Decoded :=
  reservedUnless (hi3 (fD w) == 0 && lo3 (fA w) == 0 && fB w == 0 && !fQB w && !fX w)
    (k ⟨lo3 (fD w), hi3 (fA w), fQA w⟩)
def asMLP (w : Word) (k : MloopArgs → Instr) : Decoded :=
  reservedUnless (lo3 (fA w) == 0 && !fX w) (k ⟨fD w, hi3 (fA w), fB w, fQA w, fQB w⟩)
def asSP (w : Word) (k : BitVec 6 → BitVec 6 → BitVec 3 → Instr) : Decoded :=
  reservedUnless (hi3 (fB w) == 0 && !fQA w && !fQB w && !fX w) (k (fD w) (fA w) (lo3 (fB w)))
def asPR (w : Word) (k : BitVec 6 → Instr) : Decoded :=
  reservedUnless (fD w == 0 && fB w == 0 && !fQA w && !fQB w && !fX w) (k (fA w))
def asPS (w : Word) (k : BitVec 6 → BitVec 4 → BitVec 6 → Instr) : Decoded :=
  reservedUnless (hi2 (fA w) == 0 && !fQA w && !fQB w && !fX w) (k (fD w) (lo4 (fA w)) (fB w))
def asY (w : Word) (k : SysxArgs → Instr) : Decoded :=
  reservedUnless (!fQA w && !fQB w && !fX w) (k ⟨fD w, fA w, fB w⟩)
def asYU (w : Word) (k : BitVec 6 → BitVec 6 → Instr) : Decoded :=
  reservedUnless (fB w == 0 && !fQA w && !fQB w && !fX w) (k (fD w) (fA w))
def asYW (w : Word) (k : BitVec 6 → BitVec 6 → Instr) : Decoded :=
  reservedUnless (fD w == 0 && !fQA w && !fQB w && !fX w) (k (fA w) (fB w))
def asAtom (w : Word) (k : AtomArgs → Instr) : Decoded :=
  .ok (k ⟨fD w, fA w, w.extractLsb' 5 4, w.extractLsb' 2 3, w.extractLsb' 0 2⟩)
def memArgs (w : Word) : MemArgs :=
  ⟨w.extractLsb' 23 3, w.extractLsb' 17 6, w.extractLsb' 11 6, w.extractLsb' 7 4, w.extractLsb' 0 7⟩
def asLdfe (w : Word) : Decoded :=
  let m : LdfeArgs :=
    ⟨w.extractLsb' 23 2, w.extractLsb' 17 6, w.extractLsb' 11 6, w.extractLsb' 7 4, w.extractLsb' 0 7⟩
  .ok (if wordBit w 25 then .ldfeClear m else .ldfe m)
def selAt (w : Word) (lo : Nat) : BrxSel := ⟨wordBit w (lo + 3), w.extractLsb' lo 3⟩
/-- BRX takes the N + 2 words after it as its targets; a word past the end of the fetch reads as 0 (R134 settles it at issue). -/
def takeWords : Nat → List Word → List Word
  | 0, _ => []
  | n + 1, [] => 0 :: takeWords n []
  | n + 1, w :: ws => w :: takeWords n ws
def asBrx (w : Word) (rest : List Word) : Decoded :=
  let n : BitVec 2 := w.extractLsb' 8 2
  reservedUnless (w.extractLsb' 0 8 == 0)
    (.brx ⟨selAt w 22, selAt w 18, selAt w 14, selAt w 10, n⟩ (takeWords (n.toNat + 2) rest))
def asTok (w : Word) : Decoded := reservedUnless (hi3 (iD w) == 0 && iA w == 0) (.tok (lo3 (iD w)) (iImm w))
def asMode (w : Word) : Decoded := reservedUnless (iA w == 0) (.mode (iD w) (iImm w))
def asSetw (w : Word) : Decoded :=
  reservedUnless (iA w == 0 && w.extractLsb' 4 10 == 0)
    (.setw ⟨iD w, wordBit w 3, wordBit w 2, w.extractLsb' 0 2⟩)
def asCf (w : Word) : Decoded :=
  match (iImm w).toNat with
  | 0 => .ok (.cfetch (iD w) (iA w))
  | 1 => .ok (.cfetchWait (iD w) (iA w))
  | 2 => reservedUnless (iA w == 0) (.cland (iD w))
  | _ => .error .reservedField
def asMovl (w : Word) (rest : List Word) : Decoded :=
  let lit := rest.headD 0
  reservedUnless (iA w == 0 && w.extractLsb' 1 13 == 0)
    (if wordBit w 0 then .movlScalar (iD w) lit else .movl (iD w) lit)
/-- `trap 15` is the handler's return (R203, R397); outside a handler the machine selects the trap row again. -/
def asTrap (w : Word) : Decoded :=
  let n : BitVec 4 := w.extractLsb' 0 4
  reservedUnless (iD w == 0 && iA w == 0 && w.extractLsb' 4 10 == 0) (if n == 15 then .handlerReturn else .trap n)
def asSli (w : Word) : Decoded := reservedUnless (iA w == 0) (.sli (iD w) (iImm w))
/-- Minors beyond the last assigned one trap with ILLEGAL_MINOR before any reserved field is tested (R165). -/
def asScmp (w : Word) : Decoded :=
  if (fF w).toNat < 10 then
    reservedUnless (hi3 (fD w) == 0 && !fX w) (.scmp ⟨fF w, lo3 (fD w), fA w, fB w, fQA w, fQB w⟩)
  else .ok (.unassignedEncoding w)
def asVcmp (w : Word) : Decoded :=
  if (fF w).toNat < 12 then
    reservedUnless (hi3 (fD w) == 0) (.vcmp ⟨fF w, lo3 (fD w), fA w, fB w, fQA w, fQB w, fX w⟩)
  else .ok (.unassignedEncoding w)
def asCvt (w : Word) : Decoded :=
  if (fF w).toNat < 15 then asU w (.cvt (w.extractLsb' 21 4)) else .ok (.unassignedEncoding w)
def asCvth (w : Word) : Decoded :=
  let z : BitVec 4 := w.extractLsb' 21 4
  if z == 10 || z == 11 || z == 12 then asS w (.cvth (wordBit w 25) z) else .ok (.unassignedEncoding w)
def asWin (w : Word) : Decoded :=
  reservedUnless (hi2 (iD w) == 0 && w.extractLsb' 2 12 == 0) (.win (lo4 (iD w)) (iA w) (w.extractLsb' 0 2))
def asWaitc (w : Word) : Decoded :=
  reservedUnless (iD w == 0 && iA w == 0 && w.extractLsb' 8 6 == 0) (.waitc (w.extractLsb' 0 8))

/-! ## The opcode map -/

/-- Major 0x00 (SYS): the minors of R162. -/
def decodeSys (w : Word) : Decoded :=
  match (fF w).toNat with
  | 0 => asN w .nop
  | 1 => asN w .exit
  | 2 => asN w .yield
  | 3 => asN w .ret
  | 4 => asJ3 w .join
  | 5 => asJ3 w .leave
  | 6 => asN w .bkpt
  | 7 => asN w .rcommit
  | 8 => asA w .jmpr
  | 9 => asN w .fail
  | _ => .ok (.unassignedEncoding w)

/-- Major 0x10 (SALU): the minors of R162. -/
def decodeSalu (w : Word) : Decoded :=
  match (fF w).toNat with
  | 0 => asS w .saluAdd
  | 1 => asS w .saluSub
  | 2 => asS w .saluMul
  | 3 => asS w .saluMulhi
  | 4 => asS w .mulhu
  | 5 => asS w .saluAnd
  | 6 => asS w .saluOr
  | 7 => asS w .saluXor
  | 8 => asS w .saluAndn
  | 9 => asS w .saluShl
  | 10 => asS w .saluShr
  | 11 => asS w .saluSar
  | 12 => asS w .saluMin
  | 13 => asS w .saluMax
  | 14 => asS w .minu
  | 15 => asS w .maxu
  | 16 => asU w .saluClz
  | 17 => asU w .saluPopc
  | 18 => asU w .saluBrev
  | 19 => asU w .saluMov
  | 20 => asS w .add64
  | 21 => asS w .sub64
  | _ => .ok (.unassignedEncoding w)

/-- Major 0x14 (VALU): the minors of R162. -/
def decodeValu (w : Word) : Decoded :=
  match (fF w).toNat with
  | 0 => asR w .valuAdd
  | 1 => asR w .valuSub
  | 2 => asR w .valuMul
  | 3 => asR w .valuMulhi
  | 4 => asR w .valuMin
  | 5 => asR w .valuMax
  | 6 => asR w .valuAnd
  | 7 => asR w .valuOr
  | 8 => asR w .valuXor
  | 9 => asR w .valuAndn
  | 10 => asR w .valuShl
  | 11 => asR w .valuShr
  | 12 => asR w .valuSar
  | 13 => asR w .rotl
  | 14 => asU w .valuClz
  | 15 => asU w .valuPopc
  | 16 => asU w .valuBrev
  | 17 => asU w .abs
  | 18 => asU w .neg
  | 19 => asU w .valuMov
  | 20 => asR w .sel
  | 21 => asR w .bfe
  | 22 => asR w .bfi
  | 23 => asR w .addsat
  | 24 => asR w .subsat
  | 25 => asR w .div
  | 26 => asR w .rem
  | _ => .ok (.unassignedEncoding w)

/-- Major 0x17 (PLOG): the minors of R162. -/
def decodePlog (w : Word) : Decoded :=
  match (fF w).toNat with
  | 0 => asP w .plogAnd
  | 1 => asP w .plogOr
  | 2 => asP w .plogXor
  | 3 => asP w .plogAndn
  | 4 => asPU w .plogNot
  | 5 => asPU w .plogMov
  | _ => .ok (.unassignedEncoding w)

/-- Major 0x18 (VFP): the minors of R162. -/
def decodeVfp (w : Word) : Decoded :=
  match (fF w).toNat with
  | 0 => asR w .fadd
  | 1 => asR w .fsub
  | 2 => asR w .fmul
  | 3 => asR w .fmin
  | 4 => asR w .fmax
  | 5 => asU w .fabs
  | 6 => asU w .fneg
  | 7 => asU w .frcp
  | 8 => asU w .frsq
  | 9 => asU w .fsqrt
  | 10 => asU w .fex2
  | 11 => asU w .flg2
  | 12 => asU w .frnd
  | 13 => asR w .fdiv
  | _ => .ok (.unassignedEncoding w)

/-- Major 0x19 (VFMA): the minors of R162. -/
def decodeVfma (w : Word) : Decoded :=
  match (qF w).toNat with
  | 0 => .ok (.fma ⟨qD w, qA w, qB w, qC w⟩)
  | 1 => .ok (.fms ⟨qD w, qA w, qB w, qC w⟩)
  | 2 => .ok (.fnma ⟨qD w, qA w, qB w, qC w⟩)
  | 3 => .ok (.fnms ⟨qD w, qA w, qB w, qC w⟩)
  | _ => .ok (.unassignedEncoding w)

/-- Major 0x1A (VIMAD): the minors of R162. -/
def decodeVimad (w : Word) : Decoded :=
  match (qF w).toNat with
  | 0 => .ok (.mad ⟨qD w, qA w, qB w, qC w⟩)
  | 1 => .ok (.madhi ⟨qD w, qA w, qB w, qC w⟩)
  | 2 => .ok (.madw ⟨qD w, qA w, qB w, qC w⟩)
  | _ => .ok (.unassignedEncoding w)

/-- Major 0x1D (VMOD): the minors of R162. -/
def decodeVmod (w : Word) : Decoded :=
  match (fF w).toNat with
  | 0 => asR w .mmul
  | 1 => asR w .madd
  | 2 => asR w .msub
  | 3 => asU w .mred
  | 4 => asR w .nttb
  | 5 => asA w .modq
  | _ => .ok (.unassignedEncoding w)

/-- Major 0x20 (XLANE): the minors of R162. -/
def decodeXlane (w : Word) : Decoded :=
  match (fF w).toNat with
  | 0 => asR w .shfi
  | 1 => asR w .shup
  | 2 => asR w .shdn
  | 3 => asR w .shxr
  | 4 => asPU w .vany
  | 5 => asPU w .vall
  | 6 => asBL w .ballot
  | 7 => asU w .radd
  | 8 => asU w .rmin
  | 9 => asU w .rmax
  | 10 => asU w .fradd
  | 11 => asU w .frmin
  | 12 => asU w .frmax
  | 13 => asU w .scadd
  | 14 => asU w .scaddx
  | 15 => asQA w .qapp
  | _ => .ok (.unassignedEncoding w)

/-- Major 0x21 (MOVX): the minors of R162. -/
def decodeMovx (w : Word) : Decoded :=
  match (fF w).toNat with
  | 0 => asS w .v2s
  | 1 => asU w .s2v
  | 2 => asSRD w .srd
  | 3 => asSWR w .swr
  | 4 => asD w .p2v
  | 5 => asA w .v2p
  | 6 => asD w .mrs
  | 7 => asA w .mrw
  | _ => .ok (.unassignedEncoding w)

/-- Major 0x29 (ATOM): the minors of R162. -/
def decodeAtom (w : Word) : Decoded :=
  match (fF w).toNat with
  | 0 => asAtom w .atomAdd
  | 1 => asAtom w .atomMin
  | 2 => asAtom w .atomMax
  | 3 => asAtom w .atomMinu
  | 4 => asAtom w .atomMaxu
  | 5 => asAtom w .atomAnd
  | 6 => asAtom w .atomOr
  | 7 => asAtom w .atomXor
  | 8 => asAtom w .atomSwap
  | 9 => asAtom w .atomCas
  | 10 => asAtom w .atomFadd
  | 11 => asAtom w .atomLr
  | 12 => asAtom w .atomSc
  | 13 => asAtom w .atomLdaq
  | 14 => asAtom w .atomStrl
  | _ => .ok (.unassignedEncoding w)

/-- Major 0x2A (SYNC): the minors of R162. -/
def decodeSync (w : Word) : Decoded :=
  match (fF w).toNat with
  | 0 => asFE w .fence
  | 1 => asJ3 w .bar
  | 2 => asJ3 w .arrive
  | 3 => asJ3 w .waitb
  | _ => .ok (.unassignedEncoding w)

/-- Major 0x2C (PREF): the minors of R162. -/
def decodePref (w : Word) : Decoded :=
  match (fF w).toNat with
  | 0 => asPF w .pref
  | _ => .ok (.unassignedEncoding w)

/-- Major 0x30 (COPY): the minors of R162. -/
def decodeCopy (w : Word) : Decoded :=
  match (fF w).toNat with
  | 0 => asCP w .copy
  | _ => .ok (.unassignedEncoding w)

/-- Major 0x32 (MLOOP): the minors of R162. -/
def decodeMloop (w : Word) : Decoded :=
  match (fF w).toNat with
  | 0 => asMLP w .mloop
  | _ => .ok (.unassignedEncoding w)

/-- Major 0x33 (MWAIT): the minors of R162. -/
def decodeMwait (w : Word) : Decoded :=
  match (fF w).toNat with
  | 0 => asA w .mwait
  | _ => .ok (.unassignedEncoding w)

/-- Major 0x34 (ACC): the minors of R162. -/
def decodeAcc (w : Word) : Decoded :=
  match (fF w).toNat with
  | 0 => asS w .aalloc
  | 1 => asA w .afree
  | 2 => asS w .adrain
  | 3 => asAB w .azero
  | 4 => asU w .aquery
  | _ => .ok (.unassignedEncoding w)

/-- Major 0x36 (BANK): the minors of R162. -/
def decodeBank (w : Word) : Decoded :=
  match (fF w).toNat with
  | 0 => asAB w .bkld
  | 1 => asAB w .bkrun
  | 2 => asS w .bkwait
  | 3 => asS w .bkrd
  | 4 => asAB w .bkst
  | _ => .ok (.unassignedEncoding w)

/-- Major 0x38 (SPAWN): the minors of R162. -/
def decodeSpawn (w : Word) : Decoded :=
  match (fF w).toNat with
  | 0 => asSP w .spawn
  | _ => .ok (.unassignedEncoding w)

/-- Major 0x39 (POST): the minors of R162. -/
def decodePost (w : Word) : Decoded :=
  match (fF w).toNat with
  | 0 => asPR w .postr
  | 1 => asPS w .posts
  | _ => .ok (.unassignedEncoding w)

/-- Major 0x3C (SYSX): the minors of R162. -/
def decodeSysx (w : Word) : Decoded :=
  match (fF w).toNat with
  | 0 => asY w .disp
  | 1 => asY w .saveg
  | 2 => asY w .restg
  | 3 => asY w .tlbinv
  | 4 => asYU w .csrrd
  | 5 => asYW w .csrwr
  | 6 => asY w .waitev
  | 7 => asPR w .hostirq
  | 8 => asY w .squash
  | 9 => asY w .confirm
  | _ => .ok (.unassignedEncoding w)

/-- Every word of the map by its major (R161); the words after it are those of BRX and MOVL (R153). -/
def decodeFields (w : Word) (rest : List Word) : Decoded :=
  match (fM w).toNat with
  | 0 => decodeSys w
  | 1 => .ok (.br (w.extractLsb' 0 26))
  | 2 => asBrx w rest
  | 3 => asTok w
  | 4 => .ok (.jmpf (w.extractLsb' 0 26))
  | 5 => .ok (.call (w.extractLsb' 0 26))
  | 6 => asMode w
  | 7 => asSetw w
  | 8 => .ok (.tgt w)
  | 9 => asCf w
  | 10 => asMovl w rest
  | 11 => asTrap w
  | 16 => decodeSalu w
  | 17 => .ok (.saddi ⟨iD w, iA w, iImm w⟩)
  | 18 => asSli w
  | 19 => asScmp w
  | 20 => decodeValu w
  | 21 => .ok (.vaddi ⟨iD w, iA w, iImm w⟩)
  | 22 => asVcmp w
  | 23 => decodePlog w
  | 24 => decodeVfp w
  | 25 => decodeVfma w
  | 26 => decodeVimad w
  | 27 => asCvt w
  | 28 => asCvth w
  | 29 => decodeVmod w
  | 32 => decodeXlane w
  | 33 => decodeMovx w
  | 36 => .ok (.ld (memArgs w))
  | 37 => .ok (.st (memArgs w))
  | 38 => .ok (.sld (memArgs w))
  | 39 => .ok (.sst (memArgs w))
  | 40 => asLdfe w
  | 41 => decodeAtom w
  | 42 => decodeSync w
  | 43 => asWin w
  | 44 => decodePref w
  | 48 => decodeCopy w
  | 49 => asWaitc w
  | 50 => decodeMloop w
  | 51 => decodeMwait w
  | 52 => decodeAcc w
  | 54 => decodeBank w
  | 56 => decodeSpawn w
  | 57 => decodePost w
  | 60 => decodeSysx w
  | _ => .ok (.unassignedEncoding w)

/-- The decoder: the fields first, then the field values that are reserved (R150, R165 step 3). -/
def decodeWords : List Word → Decoded
  | [] => .error .noWord
  | w :: rest =>
    match decodeFields w rest with
    | .ok i => if wellFormed i then .ok i else .error .reservedField
    | .error e => .error e

/-- How many words the encoding of an instruction has (R153). -/
def instrWords : Instr → Nat
  | .brx b _ => b.n.toNat + 3
  | .movl _ _ => 2
  | .movlScalar _ _ => 2
  | _ => 1

/-! ## The microword of a bank unit (R350) -/

/-- The 64 bits of a microword of kind `k`. -/
def packMicro (k : BitVec 3) (m : Micro) : BitVec 64 :=
  BitVec.ofNat 64 (k.toNat * 0x2000000000000000 + m.carg.toNat * 0x100000000000000 + m.fop.toNat * 0x10000000000000 + m.fd.toNat * 0x2000000000000 +
    m.fap.toNat * 0x800000000000 + m.fpost.toNat * 0x400000000000 + m.foff.toNat * 0x4000000000 + m.aop.toNat * 0x200000000 + m.ax.toNat * 0x40000000 +
    m.ay.toNat * 0x8000000 + m.mode.toNat * 0x2000000 + m.idx.toNat * 0x200000 + m.part.toNat * 0x40000 + m.wop.toNat * 0x4000 +
    m.ws.toNat * 0x800 + m.wap.toNat * 0x200 + m.wpost.toNat * 0x100 + m.woff.toNat)

/-- The two words, low word first (R3), in which a microword's bits are stored. -/
def microWords (k : BitVec 3) (m : Micro) : List Word :=
  [(packMicro k m).extractLsb' 0 32, (packMicro k m).extractLsb' 32 32]

def unpackMicro (w : BitVec 64) : Micro where
  carg := w.extractLsb' 56 5
  fop := w.extractLsb' 52 4
  fd := w.extractLsb' 49 3
  fap := w.extractLsb' 47 2
  fpost := wideBit w 46
  foff := w.extractLsb' 38 6
  aop := w.extractLsb' 33 5
  ax := w.extractLsb' 30 3
  ay := w.extractLsb' 27 3
  mode := w.extractLsb' 25 2
  idx := w.extractLsb' 21 4
  part := w.extractLsb' 18 3
  wop := w.extractLsb' 14 4
  ws := w.extractLsb' 11 3
  wap := w.extractLsb' 9 2
  wpost := wideBit w 8
  woff := w.extractLsb' 0 6

/-- CARG of each kind: the bits it does not use are zero. -/
def microCargOk (kind : Nat) (m : Micro) : Bool :=
  match kind with
  | 0 => m.carg == 0
  | 1 => m.carg.toNat < 4
  | 2 => m.carg.toNat < 4
  | 3 => m.carg == 0
  | 4 => m.carg.toNat < 8
  | 5 => m.carg.toNat < 8
  | _ => false

/-- The F slot: operations 0 to 2, an even pair for RDB, nothing set under NOP. -/
def microFOk (m : Micro) : Bool :=
  match m.fop.toNat with
  | 0 => m.fd == 0 && m.fap == 0 && !m.fpost && m.foff == 0
  | 1 => true
  | 2 => m.fd.toNat % 2 == 0
  | _ => false

/-- MODE and IDX of a multiply-accumulate: LANE uses no IDX, 3 is reserved. -/
def microModeOk (m : Micro) : Bool := m.mode != 3 && (m.mode != 0 || m.idx == 0)

/-- The A slot: operations 0 to 8 and the fields each of them uses. -/
def microAOk (m : Micro) : Bool :=
  match m.aop.toNat with
  | 0 => m.ax == 0 && m.ay == 0 && m.mode == 0 && m.idx == 0 && m.part == 0
  | 1 => microModeOk m && m.part == 0
  | 2 => microModeOk m && m.part.toNat < 2
  | 3 => microModeOk m && m.ax.toNat % 2 == 0 && m.part.toNat < 5
  | 4 => microModeOk m && m.part.toNat < 2
  | 5 => m.ay == 0 && m.mode == 0 && m.idx == 0 && m.part == 0
  | 6 => m.ay == 0 && m.mode == 0 && m.idx == 0 && m.part == 0
  | 7 => m.ax == 0 && m.mode == 0 && m.idx == 0
  | 8 => m.ax == 0 && m.ay == 0 && m.mode == 0 && m.idx == 0 && m.part == 0
  | _ => false

/-- The W slot: operations 0 to 3 and the fields each of them uses. -/
def microWOk (m : Micro) : Bool :=
  match m.wop.toNat with
  | 0 => m.ws == 0 && m.wap == 0 && !m.wpost && m.woff == 0
  | 1 => true
  | 2 => m.ws == 0 && m.wap == 0 && !m.wpost && m.woff.toNat < 8
  | 3 => m.ws == 0
  | _ => false

def microOk (kind : Nat) (m : Micro) : Bool := microCargOk kind m && microFOk m && microAOk m && microWOk m

/-- The microword as an instruction of its kind; none where R350 reserves something in it (MICROWORD, R360). -/
def decodeMicroword (w : BitVec 64) : Option Instr :=
  let kind := (w.extractLsb' 61 3).toNat
  let m := unpackMicro w
  if w.extractLsb' 44 2 == 0 && w.extractLsb' 6 2 == 0 && microOk kind m then
    match kind with
    | 0 => some (.next m)
    | 1 => some (.loop m)
    | 2 => some (.close m)
    | 3 => some (.halt m)
    | 4 => some (.waitbc m)
    | 5 => some (.flag m)
    | _ => none
  else none

/-! ## The encoder -/

/-- The words of an instruction, from the formats above; an event has none, a microword has two. -/
def encode : Instr → List Word
  | .nop => [packR 0 0 0 0 0 false false false]
  | .exit => [packR 0 1 0 0 0 false false false]
  | .yield => [packR 0 2 0 0 0 false false false]
  | .ret => [packR 0 3 0 0 0 false false false]
  | .join a => [packR 0 4 0 (p3 a) 0 false false false]
  | .leave a => [packR 0 5 0 (p3 a) 0 false false false]
  | .bkpt => [packR 0 6 0 0 0 false false false]
  | .rcommit => [packR 0 7 0 0 0 false false false]
  | .jmpr r => [packR 0 8 0 r.a 0 r.qa false false]
  | .fail => [packR 0 9 0 0 0 false false false]
  | .resume => [packR 0 9 0 0 0 false false false]
  | .handler => [packR 0 9 0 0 0 false false false]
  | .hold => [packR 0 9 0 0 0 false false false]
  | .step => [packR 0 9 0 0 0 false false false]
  | .waitPage => [packR 0 9 0 0 0 false false false]
  | .abort => [packR 0 9 0 0 0 false false false]
  | .br i => [packJ 1 i]
  | .brx b ts => packX b :: ts
  | .tok j i => [packI 3 (p3 j) 0 i]
  | .jmpf i => [packJ 4 i]
  | .call i => [packJ 5 i]
  | .mode d i => [packI 6 d 0 i]
  | .setw r => [packI 7 r.d 0 (BitVec.ofNat 14 (r.x.toNat * 8 + r.p.toNat * 4 + r.r.toNat))]
  | .formGroups _ _ => []
  | .cfetch d a => [packI 9 d a 0]
  | .cfetchWait d a => [packI 9 d a 1]
  | .cland d => [packI 9 d 0 2]
  | .landed _ _ => []
  | .movl d lit => [packI 10 d 0 0, lit]
  | .movlScalar d lit => [packI 10 d 0 1, lit]
  | .trap n => [packI 11 0 0 (n.setWidth 14)]
  | .handlerReturn => [packI 11 0 0 15]
  | .saluAdd r => [packR 16 0 r.d r.a r.b r.qa r.qb false]
  | .saluSub r => [packR 16 1 r.d r.a r.b r.qa r.qb false]
  | .saluMul r => [packR 16 2 r.d r.a r.b r.qa r.qb false]
  | .saluMulhi r => [packR 16 3 r.d r.a r.b r.qa r.qb false]
  | .mulhu r => [packR 16 4 r.d r.a r.b r.qa r.qb false]
  | .saluAnd r => [packR 16 5 r.d r.a r.b r.qa r.qb false]
  | .saluOr r => [packR 16 6 r.d r.a r.b r.qa r.qb false]
  | .saluXor r => [packR 16 7 r.d r.a r.b r.qa r.qb false]
  | .saluAndn r => [packR 16 8 r.d r.a r.b r.qa r.qb false]
  | .saluShl r => [packR 16 9 r.d r.a r.b r.qa r.qb false]
  | .saluShr r => [packR 16 10 r.d r.a r.b r.qa r.qb false]
  | .saluSar r => [packR 16 11 r.d r.a r.b r.qa r.qb false]
  | .saluMin r => [packR 16 12 r.d r.a r.b r.qa r.qb false]
  | .saluMax r => [packR 16 13 r.d r.a r.b r.qa r.qb false]
  | .minu r => [packR 16 14 r.d r.a r.b r.qa r.qb false]
  | .maxu r => [packR 16 15 r.d r.a r.b r.qa r.qb false]
  | .saluClz r => [packR 16 16 r.d r.a 0 r.qa false false]
  | .saluPopc r => [packR 16 17 r.d r.a 0 r.qa false false]
  | .saluBrev r => [packR 16 18 r.d r.a 0 r.qa false false]
  | .saluMov r => [packR 16 19 r.d r.a 0 r.qa false false]
  | .add64 r => [packR 16 20 r.d r.a r.b r.qa r.qb false]
  | .sub64 r => [packR 16 21 r.d r.a r.b r.qa r.qb false]
  | .saddi r => [packI 17 r.d r.a r.imm]
  | .sli d i => [packI 18 d 0 i]
  | .scmp r => [packR 19 r.c (p3 r.d) r.a r.b r.qa r.qb false]
  | .valuAdd r => [packR 20 0 r.d r.a r.b r.qa r.qb r.x]
  | .valuSub r => [packR 20 1 r.d r.a r.b r.qa r.qb r.x]
  | .valuMul r => [packR 20 2 r.d r.a r.b r.qa r.qb r.x]
  | .valuMulhi r => [packR 20 3 r.d r.a r.b r.qa r.qb r.x]
  | .valuMin r => [packR 20 4 r.d r.a r.b r.qa r.qb r.x]
  | .valuMax r => [packR 20 5 r.d r.a r.b r.qa r.qb r.x]
  | .valuAnd r => [packR 20 6 r.d r.a r.b r.qa r.qb r.x]
  | .valuOr r => [packR 20 7 r.d r.a r.b r.qa r.qb r.x]
  | .valuXor r => [packR 20 8 r.d r.a r.b r.qa r.qb r.x]
  | .valuAndn r => [packR 20 9 r.d r.a r.b r.qa r.qb r.x]
  | .valuShl r => [packR 20 10 r.d r.a r.b r.qa r.qb r.x]
  | .valuShr r => [packR 20 11 r.d r.a r.b r.qa r.qb r.x]
  | .valuSar r => [packR 20 12 r.d r.a r.b r.qa r.qb r.x]
  | .rotl r => [packR 20 13 r.d r.a r.b r.qa r.qb r.x]
  | .valuClz r => [packR 20 14 r.d r.a 0 r.qa false false]
  | .valuPopc r => [packR 20 15 r.d r.a 0 r.qa false false]
  | .valuBrev r => [packR 20 16 r.d r.a 0 r.qa false false]
  | .abs r => [packR 20 17 r.d r.a 0 r.qa false false]
  | .neg r => [packR 20 18 r.d r.a 0 r.qa false false]
  | .valuMov r => [packR 20 19 r.d r.a 0 r.qa false false]
  | .sel r => [packR 20 20 r.d r.a r.b r.qa r.qb r.x]
  | .bfe r => [packR 20 21 r.d r.a r.b r.qa r.qb r.x]
  | .bfi r => [packR 20 22 r.d r.a r.b r.qa r.qb r.x]
  | .addsat r => [packR 20 23 r.d r.a r.b r.qa r.qb r.x]
  | .subsat r => [packR 20 24 r.d r.a r.b r.qa r.qb r.x]
  | .div r => [packR 20 25 r.d r.a r.b r.qa r.qb r.x]
  | .rem r => [packR 20 26 r.d r.a r.b r.qa r.qb r.x]
  | .vaddi r => [packI 21 r.d r.a r.imm]
  | .vcmp r => [packR 22 r.c (p3 r.d) r.a r.b r.qa r.qb r.x]
  | .plogAnd d a b => [packR 23 0 (p3 d) (p3 a) (p3 b) false false false]
  | .plogOr d a b => [packR 23 1 (p3 d) (p3 a) (p3 b) false false false]
  | .plogXor d a b => [packR 23 2 (p3 d) (p3 a) (p3 b) false false false]
  | .plogAndn d a b => [packR 23 3 (p3 d) (p3 a) (p3 b) false false false]
  | .plogNot d a => [packR 23 4 (p3 d) (p3 a) 0 false false false]
  | .plogMov d a => [packR 23 5 (p3 d) (p3 a) 0 false false false]
  | .fadd r => [packR 24 0 r.d r.a r.b r.qa r.qb r.x]
  | .fsub r => [packR 24 1 r.d r.a r.b r.qa r.qb r.x]
  | .fmul r => [packR 24 2 r.d r.a r.b r.qa r.qb r.x]
  | .fmin r => [packR 24 3 r.d r.a r.b r.qa r.qb r.x]
  | .fmax r => [packR 24 4 r.d r.a r.b r.qa r.qb r.x]
  | .fabs r => [packR 24 5 r.d r.a 0 r.qa false false]
  | .fneg r => [packR 24 6 r.d r.a 0 r.qa false false]
  | .frcp r => [packR 24 7 r.d r.a 0 r.qa false false]
  | .frsq r => [packR 24 8 r.d r.a 0 r.qa false false]
  | .fsqrt r => [packR 24 9 r.d r.a 0 r.qa false false]
  | .fex2 r => [packR 24 10 r.d r.a 0 r.qa false false]
  | .flg2 r => [packR 24 11 r.d r.a 0 r.qa false false]
  | .frnd r => [packR 24 12 r.d r.a 0 r.qa false false]
  | .fdiv r => [packR 24 13 r.d r.a r.b r.qa r.qb r.x]
  | .fma r => [packQ 25 0 r.d r.a r.b r.c]
  | .fms r => [packQ 25 1 r.d r.a r.b r.c]
  | .fnma r => [packQ 25 2 r.d r.a r.b r.c]
  | .fnms r => [packQ 25 3 r.d r.a r.b r.c]
  | .mad r => [packQ 26 0 r.d r.a r.b r.c]
  | .madhi r => [packQ 26 1 r.d r.a r.b r.c]
  | .madw r => [packQ 26 2 r.d r.a r.b r.c]
  | .cvt t r => [packR 27 (t.setWidth 5) r.d r.a 0 r.qa false false]
  | .cvth h z r => [packR 28 (BitVec.ofNat 5 (h.toNat * 16 + z.toNat)) r.d r.a r.b r.qa r.qb false]
  | .mmul r => [packR 29 0 r.d r.a r.b r.qa r.qb r.x]
  | .madd r => [packR 29 1 r.d r.a r.b r.qa r.qb r.x]
  | .msub r => [packR 29 2 r.d r.a r.b r.qa r.qb r.x]
  | .mred r => [packR 29 3 r.d r.a 0 r.qa false false]
  | .nttb r => [packR 29 4 r.d r.a r.b r.qa r.qb r.x]
  | .modq r => [packR 29 5 0 r.a 0 r.qa false false]
  | .shfi r => [packR 32 0 r.d r.a r.b r.qa r.qb r.x]
  | .shup r => [packR 32 1 r.d r.a r.b r.qa r.qb r.x]
  | .shdn r => [packR 32 2 r.d r.a r.b r.qa r.qb r.x]
  | .shxr r => [packR 32 3 r.d r.a r.b r.qa r.qb r.x]
  | .vany d a => [packR 32 4 (p3 d) (p3 a) 0 false false false]
  | .vall d a => [packR 32 5 (p3 d) (p3 a) 0 false false false]
  | .ballot d a => [packR 32 6 d (p3 a) 0 false false false]
  | .radd r => [packR 32 7 r.d r.a 0 r.qa false false]
  | .rmin r => [packR 32 8 r.d r.a 0 r.qa false false]
  | .rmax r => [packR 32 9 r.d r.a 0 r.qa false false]
  | .fradd r => [packR 32 10 r.d r.a 0 r.qa false false]
  | .frmin r => [packR 32 11 r.d r.a 0 r.qa false false]
  | .frmax r => [packR 32 12 r.d r.a 0 r.qa false false]
  | .scadd r => [packR 32 13 r.d r.a 0 r.qa false false]
  | .scaddx r => [packR 32 14 r.d r.a 0 r.qa false false]
  | .qapp d w p => [packR 32 15 d (p4 w) (p3 p) false false false]
  | .v2s r => [packR 33 0 r.d r.a r.b r.qa r.qb false]
  | .s2v r => [packR 33 1 r.d r.a 0 r.qa false false]
  | .srd d n => [packR 33 2 d 0 n false false false]
  | .swr n r => [packR 33 3 0 r.a n r.qa false false]
  | .p2v d => [packR 33 4 d 0 0 false false false]
  | .v2p r => [packR 33 5 0 r.a 0 r.qa false false]
  | .mrs d => [packR 33 6 d 0 0 false false false]
  | .mrw r => [packR 33 7 0 r.a 0 r.qa false false]
  | .ld r => [packM 36 r.sz r.d r.a r.w r.off]
  | .st r => [packM 37 r.sz r.d r.a r.w r.off]
  | .sld r => [packM 38 r.sz r.d r.a r.w r.off]
  | .sst r => [packM 39 r.sz r.d r.a r.w r.off]
  | .ldfe r => [packM 40 (BitVec.ofNat 3 (0 + r.sz.toNat)) r.d r.a r.w r.off]
  | .ldfeClear r => [packM 40 (BitVec.ofNat 3 (4 + r.sz.toNat)) r.d r.a r.w r.off]
  | .atomAdd r => [packA 0 r.d r.a r.w r.sc r.sz]
  | .atomMin r => [packA 1 r.d r.a r.w r.sc r.sz]
  | .atomMax r => [packA 2 r.d r.a r.w r.sc r.sz]
  | .atomMinu r => [packA 3 r.d r.a r.w r.sc r.sz]
  | .atomMaxu r => [packA 4 r.d r.a r.w r.sc r.sz]
  | .atomAnd r => [packA 5 r.d r.a r.w r.sc r.sz]
  | .atomOr r => [packA 6 r.d r.a r.w r.sc r.sz]
  | .atomXor r => [packA 7 r.d r.a r.w r.sc r.sz]
  | .atomSwap r => [packA 8 r.d r.a r.w r.sc r.sz]
  | .atomCas r => [packA 9 r.d r.a r.w r.sc r.sz]
  | .atomFadd r => [packA 10 r.d r.a r.w r.sc r.sz]
  | .atomLr r => [packA 11 r.d r.a r.w r.sc r.sz]
  | .atomSc r => [packA 12 r.d r.a r.w r.sc r.sz]
  | .atomLdaq r => [packA 13 r.d r.a r.w r.sc r.sz]
  | .atomStrl r => [packA 14 r.d r.a r.w r.sc r.sz]
  | .fence scope sem => [packR 42 0 0 scope sem false false false]
  | .bar a => [packR 42 1 0 (p3 a) 0 false false false]
  | .arrive a => [packR 42 2 0 (p3 a) 0 false false false]
  | .waitb a => [packR 42 3 0 (p3 a) 0 false false false]
  | .win d a k => [packI 43 (p4 d) a (k.setWidth 14)]
  | .pref r => [packR 44 0 (p3 r.d) (p4 r.w) r.b false r.qb false]
  | .prefCompletion _ _ => []
  | .copy r => [packR 48 0 (p3 r.d) (up8 r.a8) 0 r.qa false false]
  | .copyLanding _ _ => []
  | .copyCompletion _ _ => []
  | .waitc m => [packI 49 0 0 (m.setWidth 14)]
  | .mloop r => [packR 50 0 r.d (up8 r.a8) r.b r.qa r.qb false]
  | .commandStart _ _ _ => []
  | .tileStep _ _ _ => []
  | .commandRetire _ _ _ => []
  | .mwait r => [packR 51 0 0 r.a 0 r.qa false false]
  | .aalloc r => [packR 52 0 r.d r.a r.b r.qa r.qb false]
  | .afree r => [packR 52 1 0 r.a 0 r.qa false false]
  | .adrain r => [packR 52 2 r.d r.a r.b r.qa r.qb false]
  | .azero r => [packR 52 3 0 r.a r.b r.qa r.qb false]
  | .aquery r => [packR 52 4 r.d r.a 0 r.qa false false]
  | .bkld r => [packR 54 0 0 r.a r.b r.qa r.qb false]
  | .bkrun r => [packR 54 1 0 r.a r.b r.qa r.qb false]
  | .bkwait r => [packR 54 2 r.d r.a r.b r.qa r.qb false]
  | .bkrd r => [packR 54 3 r.d r.a r.b r.qa r.qb false]
  | .bkst r => [packR 54 4 0 r.a r.b r.qa r.qb false]
  | .spawn d a p => [packR 56 0 d a (p3 p) false false false]
  | .postr a => [packR 57 0 0 a 0 false false false]
  | .posts d w b => [packR 57 1 d (p4 w) b false false false]
  | .disp r => [packR 60 0 r.d r.a r.b false false false]
  | .dispReserve r => [packR 60 0 r.d r.a r.b false false false]
  | .dispRelease r => [packR 60 0 r.d r.a r.b false false false]
  | .startTeam _ _ => []
  | .saveg r => [packR 60 1 r.d r.a r.b false false false]
  | .restg r => [packR 60 2 r.d r.a r.b false false false]
  | .tlbinv r => [packR 60 3 r.d r.a r.b false false false]
  | .shootdownAck _ _ => []
  | .csrrd d a => [packR 60 4 d a 0 false false false]
  | .csrwr a b => [packR 60 5 0 a b false false false]
  | .waitev r => [packR 60 6 r.d r.a r.b false false false]
  | .hostirq a => [packR 60 7 0 a 0 false false false]
  | .squash r => [packR 60 8 r.d r.a r.b false false false]
  | .confirm r => [packR 60 9 r.d r.a r.b false false false]
  | .resultWrite _ _ => []
  | .teamEnd _ _ => []
  | .tail _ _ _ => []
  | .admission _ _ _ => []
  | .loadRecord _ _ _ => []
  | .kick _ _ => []
  | .claim _ _ _ => []
  | .retire _ _ => []
  | .restart _ _ _ => []
  | .ef0 _ => []
  | .settlement _ _ _ => []
  | .batchReady _ _ _ => []
  | .basketOpened _ _ _ => []
  | .lapse _ _ _ => []
  | .graphIdle _ _ _ => []
  | .saveNow _ _ _ => []
  | .worldSwitch _ => []
  | .switchAbandon _ => []
  | .tinvctl _ _ => []
  | .watchhi _ _ => []
  | .agentstop _ => []
  | .dbgreqStop => []
  | .dbgreqResume => []
  | .dbgreqStep => []
  | .dbgreqFail => []
  | .dbgreqReadFrame => []
  | .next m => microWords 0 m
  | .loop m => microWords 1 m
  | .close m => microWords 2 m
  | .halt m => microWords 3 m
  | .waitbc m => microWords 4 m
  | .flag m => microWords 5 m
  | .correction _ => []
  | .contextSwitch _ => []
  | .mapdataBind => []
  | .mapdataScrub => []
  | .migcmdCopy => []
  | .migcmdFinal => []
  | .migcmdRelease => []
  | .migcmdCommit => []
  | .amendPropose => []
  | .amendAccept => []
  | .amendReject => []
  | .amendAbort => []
  | .amendStatus => []
  | .lockInterface => []
  | .startInterface => []
  | .stopInterface => []
  | .getVersion => []
  | .getCapabilities => []
  | .negotiateAlgorithms => []
  | .getDigests => []
  | .getCertificate => []
  | .challenge => []
  | .getMeasurements => []
  | .keyExchange => []
  | .finish => []
  | .heartbeat => []
  | .keyUpdate => []
  | .endSession => []
  | .functionEnable => []
  | .functionDisable => []
  | .remoteAccess _ => []
  | .linkStart _ => []
  | .powerOn _ => []
  | .throttle _ _ => []
  | .thermalTrip _ => []
  | .csrWrite _ _ _ => []
  | .hostWrite _ _ _ => []
  | .eviction _ => []
  | .softError _ _ => []
  | .scrubComplete _ => []
  | .powerLoss => []
  | .linkDown _ => []
  | .remoteStoreAck _ _ => []
  | .ideIntegrityFailure => []
  | .parityError => []
  | .tdispProtocolViolation => []
  | .larderError => []
  | .unassignedEncoding w => [w]
  | .tgt w => [w]

/-- The row that the word itself gives: the seven rows of RTT and the three of DISP share their word (R58, R392), and the
word of `trap 15` is the handler's return (R397). The machine picks the row from STAGE, from the scalar and from HANDLING. -/
def canon : Instr → Instr
  | .resume => .fail
  | .handler => .fail
  | .hold => .fail
  | .step => .fail
  | .waitPage => .fail
  | .abort => .fail
  | .dispReserve r => .disp r
  | .dispRelease r => .disp r
  | .trap n => if n == 15 then .handlerReturn else .trap n
  | i => i

/-- The words of an instruction whose bits are numbered as the opcode table numbers them: bit 0 of `w` is bit 0 of the
first word, and the words beyond are zero. -/
def tableWords (nbits w : Nat) : List Word :=
  let v := w % 2 ^ nbits
  [BitVec.ofNat 32 v, BitVec.ofNat 32 (v >>> 32), BitVec.ofNat 32 (v >>> 64), BitVec.ofNat 32 (v >>> 96),
    BitVec.ofNat 32 (v >>> 128), BitVec.ofNat 32 (v >>> 160)]

/-- The instruction this decoder reads from the table's bits; none where it refuses. -/
def decodeTableWord (nbits w : Nat) : Option Instr :=
  match decodeWords (tableWords nbits w) with
  | .ok i => some i
  | .error _ => none

end Sys2Proof
end

