-- ==== Sys2Proof/Config.lean ====
section
/-! DEFINITION. Config.lean: the figures of the part (R1, R111, R114) and the free values, which the spec leaves open and
nothing in this model can evaluate. -/

namespace Sys2Proof.Config

/-- The part modelled is the QX-940 (R114). -/
def computeCores : Nat := 512
def stackCores : Nat := 128
def stackCount : Nat := 8

/-- Bytes of stack memory: 512 GiB (R114). -/
def stackBytes : Nat := 0x8000000000
/-- Bytes of shared memory: 256 MiB (R114). -/
def sharedBytes : Nat := 0x10000000

/-- The capability registers CSR 0x000 to 0x007 (R113, R114). -/
def capability : Nat → Word
  | 0 => 0x09400132
  | 1 => 0x0000001F
  | 2 => BitVec.ofNat 32 (512 * 0x10000 + 0xF * 0x100 + 64)
  | 3 => 0xFFFFFFFF
  | 4 => 0xFFFFFFFF
  | 5 => 0x001000FF
  | 6 => BitVec.ofNat 32 (256 * 0x10000 + 64)
  | 7 => 0x00000FFF
  | _ => 0

/-- A word the spec leaves open, by the counter of free values: what the host or a partner device answers, ciphertext that
another function's data read as, keys and random numbers. -/
opaque freeWord : Nat → Word

/-- The choice the hardware makes within the bound R238 sets for an inexact result of FRCP, FRSQ, FEX2 and FLG2, by function
and operand code (operand bits, FTZ and OVF): the code of the value delivered (Machine/Float.lean reads it). -/
opaque freeApprox : Nat → Nat → Nat

/-- The bytes of an answer whose contents the spec leaves to SPDM 1.3 and to cryptography, by counter and position. -/
opaque freeByte : Nat → Nat → Byte

/-- The certificates of slot 0 (R433): the device identity key's, in the Larder's fuses, the Lidun intermediate and the Lidun root. -/
opaque deviceCertificate : List Byte
opaque intermediateCertificate : List Byte
opaque rootCertificate : List Byte

end Sys2Proof.Config
end

