-- ==== Sys2Proof/Machine/State.lean ====
section
/-! DEFINITION. Machine/State.lean: everything the spec gives the machine, as plain data; the reasons a step can stop; the
state right after a fundamental reset. Tables are sparse: a key that is not listed holds its field's default
(Machine/Tables.lean reads and writes them so). -/

namespace Sys2Proof.Machine

/-- A sparse table: a key that is not listed holds its field's default; keys rise strictly. -/
abbrev Tbl (α : Type) := List (Nat × α)

/-- Why the machine stops with a fault. -/
inductive Fault where
  /-- An instruction that only a context or a bank unit can issue was executed with no issuer chosen. Raised by the gate
  of every encoded instruction and by the microword rows; `step` always chooses an issuer first, so no run of the machine
  meets it (safe: the machine stops, nothing is claimed). -/
  | noIssuer
  deriving DecidableEq, Repr

/-- Why the machine refuses an instruction. -/
inductive Refusal where
  /-- The dispatch arm of an instruction that has no meaning yet (safe). -/
  | notModelled (mnemonic : String)
  deriving DecidableEq, Repr

/-- The window kinds (R264), the agent slot's physical window (R266) and the unset window (R36). -/
inductive WinKind where
  | unset | global | spad | cluster | priv | physical
  deriving DecidableEq, Repr

/-- A window register (R266, R267): kind, frame, the team a cluster window names, the cached physical frame and limit, and
the first byte of the page they belong to. -/
structure Window where
  kind : WinKind := .unset
  frame : Nat := 0
  team : Nat := 0
  pframe : Nat := 0
  limit : Nat := 0
  base : Nat := 0
  deriving DecidableEq, Repr

/-- A result on its way to registers (R173): the registers stay pending until the result with this number is written. -/
structure Result where
  seq : Nat
  scalar : Bool
  regs : List Nat
  writes : List (Nat × Word)
  deriving DecidableEq, Repr

/-- What a gang, or a single context, has done of an instruction that waits part-way: whether it has begun (the arrival of a
BAR, the copy of a CFETCH with wait, a save or a squash), the phase waited for or the mailboxes BKST has filled, whether
what it has done cannot be done again, and whether it stalls until its team is confirmed (R93). -/
structure Progress where
  started : Bool := false
  phase : Nat := 0
  mid : Bool := false
  stall : Bool := false
  /-- The instruction is blocked on an empty register (R174). -/
  blocked : Bool := false
  deriving DecidableEq, Repr

/-- A register context: the agent slot (R55), a team-scalar context (R116) or the scalar side of a group (R32, R179). `pc`
is the next instruction of the agent or of a team-scalar context; the gangs of a group have their own. `fenced` is one more
than the widest scope of a release FENCE it has executed, `collected` the lines it has read by ATOM since its last acquire
(R371, R383). -/
structure Ctx where
  pc : Word := 0
  s : Tbl Word := []
  sEmpty : List Nat := []
  vEmpty : List Nat := []
  results : List Result := []
  p : Tbl Bool := []
  mr : Word := 0x80
  exc : Word := 0
  clk : Word := 0
  win : Tbl Window := []
  qmod : Nat := 0
  fenced : Nat := 0
  collected : List Nat := []
  progress : Progress := {}
  deriving DecidableEq, Repr

/-- A gang (R171): its lanes, its PC, when it last issued (0: never), when it was created, and a wait's progress. -/
structure Gang where
  id : Nat
  pc : Word
  lanes : BitVec 64
  stamp : Nat := 0
  born : Nat := 0
  progress : Progress := {}
  deriving DecidableEq, Repr

/-- A set join slot (R191): join PC, expected lanes, parked lanes and the PC at which each parked lane parked. -/
structure JoinSlot where
  pc : Word
  mask : BitVec 64
  parked : BitVec 64 := 0
  deriving DecidableEq, Repr

/-- An entry of a quad's return stack (R198). -/
structure RetEntry where
  pc : Word
  lanes : BitVec 64
  deriving DecidableEq, Repr

/-- A reservation of LR (R303): the 64-byte line at its home (home address divided by 64). -/
structure Reservation where
  line : Nat
  deriving DecidableEq, Repr

/-- A debug step under way (R181): the gangs still to issue. -/
structure Stepping where
  todo : List Nat
  deriving DecidableEq, Repr

/-- A formed group (R119 to R123, R170, R191, R198); `handler` holds the lanes of GANG while its user handler runs (R396). -/
structure Group where
  ctx : Ctx := {}
  v : Tbl Word := []
  p : Tbl Bool := []
  gangs : List Gang := []
  current : Nat := 0
  streak : Nat := 0
  stamp : Nat := 0
  nextGang : Nat := 0
  joins : Tbl (Option JoinSlot) := []
  parkPc : Tbl Word := []
  ret : Tbl (List RetEntry) := []
  finished : BitVec 64 := 0
  present : BitVec 64 := 0
  arrived : Tbl (Option Nat) := []
  tokens : Tbl Nat := []
  tokenCauses : Tbl Nat := []
  matrixFail : Nat := 0
  resl : Word := 0
  ctxNo : Nat := 0
  port : Nat := 0
  core : Nat := 0
  stopped : Bool := false
  stepping : Option Stepping := none
  reserv : Tbl (Option Reservation) := []
  handler : Option (BitVec 64) := none
  deriving DecidableEq, Repr

/-- A trap frame (R389), and the hidden copy of s56 to s63 while the handler runs (R396). -/
structure Frame where
  new : Bool := false
  held : Bool := false
  handling : Bool := false
  waitPage : Bool := false
  tslot : Nat := 0
  lane : Nat := 0
  cause : Nat := 0
  tpc : Word := 0
  rpc : Word := 0
  teamx : Nat := 0
  gang : BitVec 64 := 0
  addr : Nat := 0
  record : Nat := 0
  hidden : List Word := []
  live : Bool := false
  deriving DecidableEq, Repr

/-- The state of a logical instruction-memory slot (R130). -/
inductive SlotState where
  | unbound | landing | landed | failed
  deriving DecidableEq, Repr

/-- A logical slot of a team: its state, the physical slot bound on the lower and on the upper core, source (a virtual
address) and cause. -/
structure LSlot where
  st : SlotState := .unbound
  phys : Nat := 0
  phys2 : Nat := 0
  source : Nat := 0
  cause : Nat := 0
  deriving DecidableEq, Repr

/-- How a team stands: dispatched and landing its segments, in team-scalar mode, with its groups formed, restored and waiting for
its segments, or past its last instruction. -/
inductive TeamStatus where
  | free | starting | scalar | running | resuming | ending
  deriving DecidableEq, Repr

/-- How a team came to its end (R451). -/
inductive EndKind where
  | exit | fail | squash | abort
  deriving DecidableEq, Repr

/-- A matrix command (R330 to R338), in the order of R325 by `seq`: its group and core, descriptor words, the commands that were
its unretired predecessors when it was accepted (by their `seq`), captured MR and modulus, tile steps done, flags gathered,
failure, and once its first step has run the rows of A and the columns of B as they were read (R337). -/
structure MCmd where
  seq : Nat
  id : Nat
  group : Nat
  core : Nat
  desc : List Word
  preds : List Nat
  mr : Word
  q : Nat
  started : Bool := false
  steps : Nat := 0
  flags : Nat := 0
  fail : Nat := 0
  ops : Option (List (List Byte) × List (List Byte)) := none
  deriving DecidableEq, Repr

/-- An ADRAIN that waits for earlier commands on its banks (R325, R327): the result it owes, its banks, first row and lanes. -/
structure Drain where
  seq : Nat
  lower : Nat
  slot : Nat
  group : Nat
  reg : Nat
  bank : Nat
  wide : Bool
  row : Nat
  lanes : List Nat
  deriving DecidableEq, Repr

/-- A team of a core's team slot; a pair team stands in the slot of its lower core and names the slot of the upper. -/
structure Team where
  status : TeamStatus := .free
  f : Nat := 0
  record : Nat := 0
  idx : Nat := 0
  teamsz : Nat := 0
  nteam : Nat := 0
  header : Word := 0
  regs : Nat := 64
  scratch : Nat := 0
  spad : Nat := 0
  spad2 : Nat := 0
  entry : Word := 0
  handlerPc : Word := 0
  idem : Bool := false
  w16 : Bool := false
  pair : Bool := false
  upperSlot : Nat := 0
  prov : Bool := false
  endedProv : Bool := false
  stall : Bool := false
  hamperStall : Bool := false
  aborts : Tbl Nat := []
  pin : Bool := false
  g : Nat := 0
  ngrp : Nat := 0
  setwWait : Option Nat := none
  setwReq : Nat := 0
  phase : Tbl Nat := []
  slots : Tbl LSlot := []
  priv : Nat := 0
  ctx : Ctx := {}
  stamp : Nat := 0
  stopped : Bool := false
  stepping : Bool := false
  killed : Bool := false
  saving : Bool := false
  remoteFail : Bool := false
  cmds : List MCmd := []
  producer : Option Nat := none
  node : Option Nat := none
  chunk : Option (Nat × Nat) := none
  endKind : EndKind := .exit
  byAgent : Bool := false
  kept : Nat := 0
  exitGroup : Option Nat := none
  exitPc : Word := 0
  exitLanes : BitVec 64 := 0
  restored : Bool := false
  reservation : Option Reservation := none
  deriving DecidableEq, Repr

/-- A team that has not ended, whether it is resident or saved: function, launch record and index (R306). -/
structure Mark where
  f : Nat
  record : Nat
  idx : Nat
  deriving DecidableEq, Repr

/-- A byte of an L1 (R382): its value, whether it is dirty, the function and team it was held for, the other teams whose dirty
bytes it has overwritten there, the storing thread. -/
structure L1Byte where
  val : Byte
  dirty : Bool := false
  f : Nat := 0
  team : Nat := 0
  others : List Nat := []
  by_ : Nat := 0
  deriving DecidableEq, Repr

/-- A cached translation (R277): the page base, its size and the leaf entry. -/
structure TlbEntry where
  f : Nat
  va : Nat
  size : Nat
  entry : Nat
  deriving DecidableEq, Repr

/-- A Hamper entry (R95): a 64-byte line of a team, the bytes held, its kind, the offsets whose byte the upper core of a pair
stored last (R97) and the translations by which its stores reached the line (R279). -/
structure HamperEntry where
  team : Nat
  f : Nat
  provisional : Bool
  line : Nat
  bytes : Tbl (Option Byte)
  upper : List Nat := []
  pages : List TlbEntry := []
  deriving DecidableEq, Repr

/-- A range lock (R312, R313): scratchpad bytes of this core, or virtual bytes of a function; a source or a destination. -/
structure RangeLock where
  global : Bool
  f : Nat
  base : Nat
  len : Nat
  dest : Bool
  op : Nat
  deriving DecidableEq, Repr

/-- A COPY, a PREF or a copy into instruction memory under way (R306, R314, R136). -/
inductive EngKind where
  | copy | pref | code
  deriving DecidableEq, Repr

/-- An engine operation: the team and group it belongs to, what it moves, how far it has come, the translations it has used
(R279, R315), and where it stalls on an absent page. -/
structure EngOp where
  kind : EngKind
  lower : Nat
  slot : Nat
  group : Nat
  f : Nat
  token : Nat := 0
  desc : List Word := []
  src : Window := {}
  dst : Window := {}
  srcTeam : Nat := 0
  dstTeam : Nat := 0
  pos : Nat := 0
  pages : List TlbEntry := []
  stalledAt : Option Nat := none
  lslot : Nat := 0
  va : Nat := 0
  len : Nat := 0
  retain : Bool := false
  home : Option Nat := none
  deriving DecidableEq, Repr

/-- An engine fault record (R399). -/
structure EngFault where
  tslot : Nat
  teamx : Nat
  va : Nat
  record : Nat
  kind : Nat
  deriving DecidableEq, Repr

/-- An allocated accumulator bank (R323): its team, its allocation (first bank, length, holder) and its band with the owner. -/
structure AccBank where
  team : Nat
  first : Nat
  len : Nat
  holder : Nat
  band : Nat
  owner : Option Nat := none
  deriving DecidableEq, Repr

/-- The reservation DISP holds for an agent (R58): the record, the team slot, a pair's slot on the partner, the room it takes
on either core and the private block. -/
structure Reserved where
  record : Nat
  slot : Nat
  /-- The core the team starts on: the lower one of a pair team's two. -/
  lower : Nat := 0
  /-- The object of the kernel found for the record (R58). -/
  object : Nat := 0
  upper : Option Nat := none
  kb : Nat := 0
  kb2 : Nat := 0
  scratch : Nat := 0
  segs : Nat := 0
  priv : Nat := 0
  /-- The function whose private block it holds (R270). -/
  f : Nat := 0
  deriving DecidableEq, Repr

/-- A team waiting to be started again after an abort (R283): its place in the launch, the count NTEAM it was claimed with
(R38), its private block, the page it met and its aborts at each page. -/
structure Restart where
  record : Nat
  idx : Nat
  nteam : Nat
  priv : Nat
  va : Nat
  aborts : Tbl Nat := []
  node : Option Nat := none
  restored : Bool := false
  prov : Bool := false
  deriving DecidableEq, Repr

/-- A shootdown under way (R278 to R280): the agent that executes TLBINV, or a request through TINVCTL; the function, the range
and the cores that have not acknowledged. -/
structure Shoot where
  agent : Option Nat := none
  f : Nat
  va : Nat
  len : Nat
  all : Bool
  started : Bool := false
  pending : List Nat := []
  deriving DecidableEq, Repr

/-- A compute core (0 to 511) or a stack core (512 and above): R109, R111, R130, R346. `resumeWait` names the saved teams whose
resume waits there for contexts (R112). -/
structure Core where
  ctx : Ctx := {}
  agentStopped : Bool := false
  agentStamp : Nat := 0
  agentWork : Bool := false
  events : Word := 0
  stage : Word := 0
  atimer : Word := 0
  dbgstop : Word := 0
  apoison : Word := 0
  watchlo : Word := 0
  watchhi : Word := 0
  held : Option Reserved := none
  reservation : Option Reservation := none
  frames : Tbl Frame := []
  spad : Tbl Byte := []
  /-- The granules of the scratchpad whose full/empty bit is full (R297). -/
  gfull : List Nat := []
  imem : Tbl Word := []
  imemOwner : Tbl Nat := []
  agentCode : Tbl Word := []
  l1 : Tbl (Option L1Byte) := []
  tlb : List TlbEntry := []
  hamper : List HamperEntry := []
  locks : List RangeLock := []
  resumeWait : List Mark := []
  ops : Tbl (Option EngOp) := []
  engfaults : List EngFault := []
  accBanks : Tbl (Option AccBank) := []
  acc : Tbl Word := []
  drains : List Drain := []
  clk : Nat := 0
  deriving DecidableEq, Repr

/-- TDISP states (R435). -/
inductive Tdisp where
  | unlocked | locked | run | error
  deriving DecidableEq, Repr

/-- An amendment (R436 to R440): pending or active, its body, and for each row block to move its place in the slice map, the
physical row block it goes to and the one it comes from; `stage` is 1 after COPY (MV), 2 after FINAL, 3 after RELEASE. -/
structure Amend where
  body : List Byte := []
  active : Bool := false
  id : Nat := 0
  stage : Tbl Nat := []
  moves : List (Nat × Nat × Nat) := []
  /-- The rows that the COPY under way has still to copy. -/
  rowsLeft : List Nat := []
  deriving DecidableEq, Repr

/-- An SPDM secured session (R433). -/
structure Session where
  id : Nat
  finished : Bool := false
  /-- Whether the tenant holds it, and not the host. -/
  tenant : Bool := false
  deriving DecidableEq, Repr

/-- Why a byte is reached (R276, R290, R296): the permission tested, the locks that matter and the fault's KIND. -/
inductive Acc where
  | load | store | atomic | ldfe | pref | code | copyRead | copyWrite
  deriving DecidableEq, Repr

/-- A fault that waits for its page (R281): the record's fields, whether it stands in the ring, and the accesses that met it. -/
structure FaultWait where
  va : Nat
  record : Nat
  team : Nat
  kind : Nat
  restart : Bool
  written : Bool
  accs : List Acc := []
  deriving DecidableEq, Repr

/-- What a function keeps of a team while it is saved, beside its image: what R411 to R413 give no place (log 76). `resl` and
`handlers` go by the number of the saved group. -/
structure SavedTeam where
  record : Nat
  idx : Nat
  nteam : Nat
  restored : Bool := false
  remoteFail : Bool := false
  hamperStall : Bool := false
  aborts : Tbl Nat := []
  resl : List Word := []
  handlers : List (Option (BitVec 64)) := []
  deriving DecidableEq, Repr

/-- A function: the PF is 0, the VFs are 1 to 31. `csr` holds every per-function register by its number. -/
structure Func where
  enabled : Bool := false
  csr : Tbl Word := []
  tdisp : Tdisp := .unlocked
  map : Tbl Nat := []
  amend : Option Amend := none
  lastId : Nat := 0
  amendDone : Nat := 0
  amendAbort : Bool := false
  lastDigest : List Byte := []
  sessions : List Session := []
  nextSession : Nat := 1
  restarts : List Restart := []
  /-- What the function keeps of each team beside its image, for as long as the team is saved. -/
  saved : List SavedTeam := []
  loaded : List (Nat × Nat × Nat) := []
  waits : List FaultWait := []
  privUsed : List Nat := []
  switched : List Nat := []
  /-- The row blocks of a disable whose scrub is BUSY (R458). -/
  scrubbing : List Nat := []
  leaving : List Nat := []
  worldResident : Bool := true
  /-- The function's MSI-X table (R59): its size, the vectors it masks, and the masked ones that have a message pending. -/
  msixSize : Nat := 256
  msixMasked : List Nat := []
  msixPending : List Nat := []
  deriving DecidableEq, Repr

/-- The run state of a bank-unit context (R349). -/
inductive RunState where
  | idle | running | paused | halted | faulted
  deriving DecidableEq, Repr

/-- A bank-unit context (R349) and the parts of a run that R350 to R355 describe: `openCol` is the register and column of a
block that one RDC has opened and `openBlock` that block as it stood then (R365), `pendW` a column that waits for its block's
other column. -/
structure Unit where
  o : Tbl Byte := []
  unver : List Nat := []
  m : Tbl Word := []
  ap : Tbl Nat := []
  str : Tbl Int := []
  lc : Tbl Nat := []
  ls : Tbl Nat := []
  lcInit : Tbl Nat := []
  store : Tbl (BitVec 64) := []
  pc : Nat := 0
  mailbox : List Byte := []
  mailFull : Bool := false
  result : Tbl Word := []
  flags : BitVec 8 := 0
  rowFirst : Nat := 0
  rowCount : Nat := 0
  run : RunState := .idle
  faultCause : Nat := 0
  faultCol : Nat := 0
  ovf : Bool := false
  owner : Option (Nat × Nat) := none
  openCol : Option (Nat × Nat) := none
  openBlock : List Byte := []
  pendW : Option (Nat × List Byte) := none
  byClose : Bool := false
  stalled : Option Nat := none
  cycles : Nat := 0
  stamp : Nat := 0
  /-- While an amendment moves the bank's rows: the physical bank whose unit still holds the context (R447). -/
  bankAt : Option Nat := none
  deriving DecidableEq, Repr

/-- A triple of 256-bit keys (R427): K1 and K2 for XTS, K3 for GMAC. -/
structure KeyTriple where
  k1 : List Byte := []
  k2 : List Byte := []
  k3 : List Byte := []
  deriving DecidableEq, Repr

/-- The row-block table entry of a physical row block (R430), the rows written since a copy of it began (R439), whether every block of
it reads as poisoned (R441), and the keys under which its blocks stand (R428). -/
structure RowBlock where
  owner : Nat := 0
  bound : Bool := false
  pgen : Nat := 0
  dirty : List Nat := []
  tracking : Bool := false
  pz : Bool := false
  keys : KeyTriple := {}
  deriving DecidableEq, Repr

/-- Who issues: a gang of a register context, or a bank-unit context (by function times 8192 plus logical bank). -/
inductive Who where
  | ctx (ref : CtxRef) (gang : Nat)
  | unit (key : Nat)
  deriving DecidableEq, Repr

/-- A request to the agents or to the Larder (R404, R432 to R438, R458): the function it concerns, the register value, the
message bytes, and whether it came inside the tenant's own stream. -/
structure Request where
  f : Nat
  value : Word := 0
  msg : List Byte := []
  tenant : Bool := false
  args : List Nat := []
  deriving DecidableEq, Repr

/-- A step that is due: the instruction or event, in the name of whom, the STAGE value (R391) its agent writes first,
and the request it answers. -/
structure Due where
  who : Option Who := none
  stage : Option Word := none
  req : Option Request := none
  instr : Instr
  deriving DecidableEq, Repr

/-- Power-up states (R464 to R467). -/
inductive Power where
  | off | testing | service | safe | tripped
  deriving DecidableEq, Repr

/-- A releaser record of a line (R383): the core and the bytes that were dirty in it at its release. -/
structure Releaser where
  core : Nat
  f : Nat
  lines : List Nat
  deriving DecidableEq, Repr

/-- A remote or host store whose acknowledgement is outstanding (R286, R386), and the translations it used (R279). -/
structure OutStore where
  core : Nat
  team : Nat
  f : Nat
  host : Bool
  pages : List TlbEntry := []
  deriving DecidableEq, Repr

/-- The whole machine. -/
structure State where
  /-- The issuer of the instruction being executed; none between instructions. -/
  who : Option Who := none
  /-- Steps already due, oldest first: device and agent events, and the host's actions still to come. -/
  agenda : List Due := []
  /-- The request that the step being taken answers. -/
  request : Option Request := none
  /-- An issuer that is to issue next, ahead of the order of R175. -/
  turn : Option Who := none
  /-- The instruction just executed had to wait and did not issue (R172). -/
  waited : Bool := false
  /-- Steps taken so far: the stamps of R175 and R176. -/
  time : Nat := 0
  /-- The model's own counter of free values drawn (Config.freeWord and the like). -/
  free : Nat := 0
  /-- Results and requests are numbered. -/
  seq : Nat := 1
  cores : Tbl Core := []
  teams : Tbl Team := []
  groups : Tbl Group := []
  funcs : Tbl Func := []
  units : Tbl Unit := []
  banks : Tbl Nat := []
  /-- Device memory by device physical address: stack memory (target 0) and shared memory (target 1) as plaintext. -/
  mem : List Host.Cell := []
  rowBlocks : Tbl RowBlock := []
  /-- The poison table of each stack (R441): physical block addresses, oldest first. -/
  poison : Tbl (List Nat) := []
  /-- Symbols in error in a stored codeword (R356, R428), by physical block address: place in the 72 bytes, and difference. -/
  bad : Tbl (List (Nat × Nat)) := []
  /-- The key slots of the base dies (R427), by 32 times the stack plus the function. -/
  keySlots : Tbl (Option KeyTriple) := []
  watch : List Nat := []
  releasers : Tbl (List Releaser) := []
  /-- Lines of target-0 pages that stand in shared memory, with the teams that retain each (R305, R306). -/
  resident : Tbl (Option (List Mark)) := []
  l2tlb : Tbl (List TlbEntry) := []
  outStores : List OutStore := []
  /-- Reservations that threads of partner devices hold on lines of this device (R303), by writer number. -/
  remoteRes : Tbl (Option Reservation) := []
  shoots : List Shoot := []
  /-- Device registers that no function owns: power, domain and stop registers by CSR number. -/
  csr : Tbl Word := []
  power : Power := .off
  domains : Tbl Nat := []
  linkUp : Tbl Bool := []
  /-- Interrupts sent: function and vector, oldest first. -/
  irqs : List (Nat × Nat) := []
  /-- Answers of the Larder and of remote requests, oldest first: function and bytes. -/
  replies : List (Nat × List Byte) := []
  deriving DecidableEq, Repr

/-- What the agent slot may do with an instruction (R475): traps with PRIV, executes, or executes nowhere else. -/
inductive AgentRule where
  | no | yes | only
  deriving DecidableEq, Repr

/-- Where a byte lives: its home address (Machine/Memory.lean), whether its page is tagged, and the virtual address or the
window offset by which it was reached. -/
structure Place where
  h : Nat
  tag : Bool := false
  va : Nat := 0
  deriving DecidableEq, Repr

/-- The bytes an access touches, before translation: home addresses in scratchpad, physical addresses of an agent, or
virtual addresses. -/
inductive Target where
  | homes (hs : List Nat)
  | virt (vas : List Nat)
  | phys (pa : Nat)
  deriving DecidableEq, Repr

/-- A register operand: its class, number, whether it is a source, and the policy when it is empty (R152). -/
structure Opnd where
  sc : Bool
  reg : Nat
  src : Bool := false
  trapEmpty : Bool := false
  deriving DecidableEq, Repr

/-- What is checked before an instruction's own work (R165, R116, R8): its major and minor, where it may execute, the
vector registers it names, its scalar-mode and W16 rules, and its port cycles for each issued quad (0: one a gang), with
their factor under a 64-bit TYPE. -/
structure Gate where
  major : Nat
  minor : Nat := 0
  agent : AgentRule := .no
  scalarOk : Bool := false
  legacy : Bool := false
  named : List Nat := []
  quadCost : Nat := 0
  wide : Nat := 1
  extra : Nat := 0
  deriving DecidableEq, Repr

/-- The issuer as an instruction finds it: the context, the core it runs on, the team's lower core and slot, the team, the
register context, the group (a default one outside a group) and the gang. -/
structure Env where
  ref : CtxRef
  core : Nat
  lower : Nat
  slot : Nat
  gi : Nat
  team : Team
  ctx : Ctx
  group : Group
  gang : Gang
  deriving DecidableEq, Repr

/-- How an instruction's own work ends: in sequence after `len` words, with the PCs set by the instruction itself, in a
trap (cause, failing lane, address, state with the partial effects the description allows), or in a wait. -/
inductive Eff where
  | done (len : Nat) (s : State)
  | moved (s : State)
  | trap (cause : Nat) (lane : Option Nat) (addr : Nat) (s : State)
  | wait (s : State)
  deriving DecidableEq, Repr

/-- The machine right after a fundamental reset (R464): the self-test is about to run, nothing is enabled, every memory
reads as scrubbed, every context as it stands with nothing in it. -/
def State.reset : State where
  power := .testing
  agenda := [{ instr := .powerOn [] }]

end Sys2Proof.Machine
end

