-- ==== Sys2Proof/Machine/Tables.lean ====
section
/-! DEFINITION. Machine/Tables.lean: reading and writing sparse tables and byte memories, and the one accessor of each part
of the state. -/

namespace Sys2Proof.Machine

/-! ## Tables -/

/-- The value under key `k`; `d` where none is listed. -/
def tget {α : Type} (t : Tbl α) (d : α) (k : Nat) : α :=
  match t with
  | [] => d
  | (i, v) :: r => if i = k then v else tget r d k

/-- `t` with `v` under key `k`. -/
def tput {α : Type} (t : Tbl α) (k : Nat) (v : α) : Tbl α :=
  match t with
  | [] => [(k, v)]
  | (i, x) :: r => if k < i then (k, v) :: (i, x) :: r else if k = i then (k, v) :: r else (i, x) :: tput r k v

/-- `t` without key `k`. -/
def tdel {α : Type} (t : Tbl α) (k : Nat) : Tbl α := t.filter (fun e => e.1 != k)

/-! ## Byte memories: one canonical form -/

/-- What a byte that is not listed reads as: memory is scrubbed to zero before a function can use it (R430, R458), shared
memory ways are set to zero (R425), scratchpads are zeroed when a core passes to an owner (R457). -/
def unlistedByte : Byte := 0

/-- The byte at an address. -/
def readByte (m : List Host.Cell) (a : Nat) : Byte := tget m unlistedByte a

/-- `m` with `b` at address `a`, in canonical form: keys rising, no entry equal to what an unlisted address reads as. -/
def writeByte (m : List Host.Cell) (a : Nat) (b : Byte) : List Host.Cell :=
  match m with
  | [] => if b = unlistedByte then [] else [(a, b)]
  | (i, x) :: r =>
    if a < i then (if b = unlistedByte then (i, x) :: r else (a, b) :: (i, x) :: r)
    else if a = i then (if b = unlistedByte then r else (a, b) :: r)
    else (i, x) :: writeByte r a b

/-- Bytes from an address up. -/
def readBytes (m : List Host.Cell) (a n : Nat) : List Byte := (List.range n).map (fun i => readByte m (a + i))

/-- A list of (address, byte) written in order. -/
def writeCells (m : List Host.Cell) (cs : List (Nat × Byte)) : List Host.Cell :=
  cs.foldl (fun m c => writeByte m c.1 c.2) m

/-- The canonical form of a byte memory: addresses strictly rising from `lo`, no byte at the unlisted value. -/
def wfFrom (lo : Nat) : List Host.Cell → Bool
  | [] => true
  | (a, b) :: r => lo ≤ a && b != unlistedByte && wfFrom (a + 1) r

/-- The canonical form of a byte memory. -/
def Memory.wf (m : List Host.Cell) : Bool := wfFrom 0 m

/-! ## Words and bytes -/

/-- Little-endian value of bytes (R3). -/
def leNat : List Byte → Nat
  | [] => 0
  | b :: r => b.toNat + 256 * leNat r

/-- The low `n` bytes of a number, little-endian. -/
def leBytes (n x : Nat) : List Byte := (List.range n).map (fun i => BitVec.ofNat 8 (x >>> (8 * i)))

def word (x : Nat) : Word := BitVec.ofNat 32 x

/-- The low `n` bits of `x` as a signed number. -/
def signed (n x : Nat) : Int :=
  let y := x % 2 ^ n
  if y < 2 ^ (n - 1) then (y : Int) else (y : Int) - (2 ^ n : Nat)

/-- An integer modulo 2^n. -/
def wrap (n : Nat) (x : Int) : Nat := (x % ((2 ^ n : Nat) : Int)).toNat

/-- The low and the high word of a 64-bit value (R3). -/
def loWord (x : Nat) : Word := word x
def hiWord (x : Nat) : Word := word (x >>> 32)

/-- Lanes whose bit is set, ascending. -/
def lanesOf (m : BitVec 64) : List Nat := (List.range 64).filter (fun l => m.getLsbD l)

/-- The mask of a list of lanes. -/
def maskOf (ls : List Nat) : BitVec 64 := ls.foldl (fun m l => m ||| (1#64 <<< l)) 0

/-- A word with bit `i` set to `b`. -/
def setBit (w : Word) (i : Nat) (b : Bool) : Word := if b then w ||| (1#32 <<< i) else w &&& ~~~(1#32 <<< i)

/-! ## Parts of the state -/

def teamKey (core slot : Nat) : Nat := core * 16 + slot
def groupKey (core slot g : Nat) : Nat := teamKey core slot * 128 + g
def unitKey (f bank : Nat) : Nat := f * 8192 + bank

def State.core (s : State) (c : Nat) : Core := tget s.cores {} c
def State.setCore (s : State) (c : Nat) (x : Core) : State := { s with cores := tput s.cores c x }
def State.team (s : State) (c sl : Nat) : Team := tget s.teams {} (teamKey c sl)
def State.setTeam (s : State) (c sl : Nat) (x : Team) : State := { s with teams := tput s.teams (teamKey c sl) x }
def State.group (s : State) (c sl g : Nat) : Group := tget s.groups {} (groupKey c sl g)
def State.setGroup (s : State) (c sl g : Nat) (x : Group) : State :=
  { s with groups := tput s.groups (groupKey c sl g) x }
def State.func (s : State) (f : Nat) : Func := tget s.funcs {} f
def State.setFunc (s : State) (f : Nat) (x : Func) : State := { s with funcs := tput s.funcs f x }
def State.unit (s : State) (k : Nat) : Unit := tget s.units {} k
def State.setUnit (s : State) (k : Nat) (x : Unit) : State := { s with units := tput s.units k x }

/-- The register context a reference names. -/
def State.ctx (s : State) : CtxRef → Ctx
  | .agent c => (s.core c).ctx
  | .scalar c sl => (s.team c sl).ctx
  | .group c sl g => (s.group c sl g).ctx

def State.setCtx (s : State) (r : CtxRef) (x : Ctx) : State :=
  match r with
  | .agent c => s.setCore c { s.core c with ctx := x }
  | .scalar c sl => s.setTeam c sl { s.team c sl with ctx := x }
  | .group c sl g => s.setGroup c sl g { s.group c sl g with ctx := x }

/-- Adds steps that are now due. -/
def State.due (s : State) (ds : List Due) : State := { s with agenda := s.agenda ++ ds }

/-- A per-function register (R274, R415, R423, R473 and the rest), by number. -/
def State.fcsr (s : State) (f n : Nat) : Word := tget (s.func f).csr 0 n
def State.setFcsr (s : State) (f n : Nat) (v : Word) : State :=
  s.setFunc f { s.func f with csr := tput (s.func f).csr n v }
/-- Two consecutive registers as one 64-bit value. -/
def State.fcsr64 (s : State) (f n : Nat) : Nat := (s.fcsr f n).toNat + (s.fcsr f (n + 1)).toNat * 0x100000000

/-- A fresh free value and the state that has drawn it. -/
def State.drawWord (s : State) : Word × State := (Config.freeWord s.free, { s with free := s.free + 1 })

/-- `n` fresh free bytes; the rows of Config.freeByte below 16 belong to what an agent cannot read (Machine/Device.lean). -/
def State.drawBytes (s : State) (n : Nat) : List Byte × State :=
  ((List.range n).map (Config.freeByte (s.free + 16)), { s with free := s.free + 1 })

/-! ## Registers of a context (R32, R34, R38) -/

def Ctx.readS (c : Ctx) (r : Nat) : Word := tget c.s 0 r
/-- Writing a scalar register makes it full (R34). -/
def Ctx.writeS (c : Ctx) (r : Nat) (x : Word) : Ctx :=
  { c with s := tput c.s r x, sEmpty := c.sEmpty.filter (· != r) }
def Ctx.window (c : Ctx) (w : Nat) : Window := tget c.win {} w
def Ctx.setWindow (c : Ctx) (w : Nat) (x : Window) : Ctx := { c with win := tput c.win w x }
/-- The single predicates of the agent slot and of team-scalar mode; p0 is true. -/
def Ctx.readP (c : Ctx) (p : Nat) : Bool := if p = 0 then true else tget c.p false p
def Ctx.writeP (c : Ctx) (p : Nat) (b : Bool) : Ctx := if p = 0 then c else { c with p := tput c.p p b }
/-- Registers with a result on its way (R173). -/
def Ctx.pending (c : Ctx) (sc : Bool) (r : Nat) : Bool := c.results.any (fun x => x.scalar == sc && x.regs.contains r)

def Group.readV (g : Group) (r l : Nat) : Word := tget g.v 0 (l * 64 + r)
/-- Writing a vector register makes it full for every lane (R34). -/
def Group.writeV (g : Group) (r l : Nat) (x : Word) : Group :=
  { g with v := tput g.v (l * 64 + r) x, ctx := { g.ctx with vEmpty := g.ctx.vEmpty.filter (· != r) } }
def Group.readP (g : Group) (p l : Nat) : Bool := if p = 0 then true else tget g.p false (l * 8 + p)
def Group.writeP (g : Group) (p l : Nat) (b : Bool) : Group :=
  if p = 0 then g else { g with p := tput g.p (l * 8 + p) b }
/-- Lanes whose threads exist and have not finished (R9). -/
def Group.live (g : Group) : BitVec 64 := g.present &&& ~~~g.finished

end Sys2Proof.Machine
end

