-- ==== Sys2Proof/Machine/Crypto.lean ====
section
/-! DEFINITION. Machine/Crypto.lean: the functions that the spec names by their standards: SHA-512 (R433, R434, R437), AES-256,
XTS (IEEE 1619) and GMAC (R428), the Reed-Solomon code of the side band (R428), and the stored form of a block. -/

namespace Sys2Proof.Machine

/-! ## SHA-512 -/

/-- Round constants 0 to 19. -/
def shaK0 : List Nat :=
  [0x428a2f98d728ae22, 0x7137449123ef65cd, 0xb5c0fbcfec4d3b2f, 0xe9b5dba58189dbbc,
   0x3956c25bf348b538, 0x59f111f1b605d019, 0x923f82a4af194f9b, 0xab1c5ed5da6d8118,
   0xd807aa98a3030242, 0x12835b0145706fbe, 0x243185be4ee4b28c, 0x550c7dc3d5ffb4e2,
   0x72be5d74f27b896f, 0x80deb1fe3b1696b1, 0x9bdc06a725c71235, 0xc19bf174cf692694,
   0xe49b69c19ef14ad2, 0xefbe4786384f25e3, 0x0fc19dc68b8cd5b5, 0x240ca1cc77ac9c65]

/-- Round constants 20 to 39. -/
def shaK1 : List Nat :=
  [0x2de92c6f592b0275, 0x4a7484aa6ea6e483, 0x5cb0a9dcbd41fbd4, 0x76f988da831153b5,
   0x983e5152ee66dfab, 0xa831c66d2db43210, 0xb00327c898fb213f, 0xbf597fc7beef0ee4,
   0xc6e00bf33da88fc2, 0xd5a79147930aa725, 0x06ca6351e003826f, 0x142929670a0e6e70,
   0x27b70a8546d22ffc, 0x2e1b21385c26c926, 0x4d2c6dfc5ac42aed, 0x53380d139d95b3df,
   0x650a73548baf63de, 0x766a0abb3c77b2a8, 0x81c2c92e47edaee6, 0x92722c851482353b]

/-- Round constants 40 to 59. -/
def shaK2 : List Nat :=
  [0xa2bfe8a14cf10364, 0xa81a664bbc423001, 0xc24b8b70d0f89791, 0xc76c51a30654be30,
   0xd192e819d6ef5218, 0xd69906245565a910, 0xf40e35855771202a, 0x106aa07032bbd1b8,
   0x19a4c116b8d2d0c8, 0x1e376c085141ab53, 0x2748774cdf8eeb99, 0x34b0bcb5e19b48a8,
   0x391c0cb3c5c95a63, 0x4ed8aa4ae3418acb, 0x5b9cca4f7763e373, 0x682e6ff3d6b2b8a3,
   0x748f82ee5defb2fc, 0x78a5636f43172f60, 0x84c87814a1f0ab72, 0x8cc702081a6439ec]

/-- Round constants 60 to 79. -/
def shaK3 : List Nat :=
  [0x90befffa23631e28, 0xa4506cebde82bde9, 0xbef9a3f7b2c67915, 0xc67178f2e372532b,
   0xca273eceea26619c, 0xd186b8c721c0c207, 0xeada7dd6cde0eb1e, 0xf57d4f7fee6ed178,
   0x06f067aa72176fba, 0x0a637dc5a2c898a6, 0x113f9804bef90dae, 0x1b710b35131c471b,
   0x28db77f523047d84, 0x32caab7b40c72493, 0x3c9ebe0a15c9bebc, 0x431d67c49c100d4c,
   0x4cc5d4becb3e42b6, 0x597f299cfc657e2a, 0x5fcb6fab3ad6faec, 0x6c44198c4a475817]

def shaK : List Nat := shaK0 ++ shaK1 ++ shaK2 ++ shaK3

/-- The initial hash value. -/
def shaInit : List Nat :=
  [0x6a09e667f3bcc908, 0xbb67ae8584caa73b, 0x3c6ef372fe94f82b, 0xa54ff53a5f1d36f1,
   0x510e527fade682d1, 0x9b05688c2b3e6c1f, 0x1f83d9abfb41bd6b, 0x5be0cd19137e2179]

/-- Addition and rotation of 64-bit words. -/
def add64 (x y : Nat) : Nat := (x + y) % 2 ^ 64
def rotr64 (n x : Nat) : Nat := (x >>> n) ||| (x <<< (64 - n)) % 2 ^ 64

/-- The number that bytes give, most significant first, and the bytes of a number. -/
def beNat (bs : List Byte) : Nat := bs.foldl (fun x b => 256 * x + b.toNat) 0
def beBytes (n x : Nat) : List Byte := (leBytes n x).reverse

/-- The message with its padding: a bit 1, zeros, and the length in bits. -/
def shaPad (m : List Byte) : List Byte :=
  m ++ 0x80 :: (List.replicate ((239 - m.length % 128) % 128) 0 ++ beBytes 16 (8 * m.length))

/-- The message schedule, latest word first. -/
def shaSchedule (block : List Byte) : List Nat :=
  (List.range 64).foldl (fun w _ =>
    let s0 := let x := w.getD 14 0; rotr64 1 x ^^^ rotr64 8 x ^^^ (x >>> 7)
    let s1 := let x := w.getD 1 0; rotr64 19 x ^^^ rotr64 61 x ^^^ (x >>> 6)
    add64 (add64 s1 (w.getD 6 0)) (add64 s0 (w.getD 15 0)) :: w)
    ((List.range 16).map (fun i => beNat ((block.drop (8 * i)).take 8))).reverse

/-- One round, with the sum of the round constant and the schedule word. -/
def shaRound : List Nat → Nat → List Nat
  | [a, b, c, d, e, f, g, h], kw =>
    let t1 := add64 (add64 h (rotr64 14 e ^^^ rotr64 18 e ^^^ rotr64 41 e)) (add64 ((e &&& f) ^^^ ((2 ^ 64 - 1 - e) &&& g)) kw)
    let t2 := add64 (rotr64 28 a ^^^ rotr64 34 a ^^^ rotr64 39 a) ((a &&& b) ^^^ (a &&& c) ^^^ (b &&& c))
    [add64 t1 t2, a, b, c, add64 d t1, e, f, g]
  | v, _ => v

/-- The compression of one block of 128 bytes. -/
def shaBlock (h : List Nat) (block : List Byte) : List Nat :=
  List.zipWith add64 h ((List.zipWith add64 shaK (shaSchedule block).reverse).foldl shaRound h)

/-- SHA-512 of a message: 64 bytes. -/
def sha512 (m : List Byte) : List Byte :=
  let p := shaPad m
  ((List.range (p.length / 128)).foldl (fun h i => shaBlock h ((p.drop (128 * i)).take 128)) shaInit).flatMap (beBytes 8)

/-! ## Fields of characteristic 2 -/

/-- The product in GF(2^8) modulo a polynomial of degree 8. -/
def gfMul (poly a b : Nat) : Nat :=
  (List.range 8).foldl (fun acc i =>
    let x := 2 * acc
    (if bit x 8 then x ^^^ poly else x) ^^^ (if bit b (7 - i) then a else 0)) 0

/-- The power to 2 to the n. -/
def gfSquares (poly : Nat) : Nat → Nat → Nat
  | 0, x => x
  | n + 1, x => gfSquares poly n (gfMul poly x x)

/-- The inverse, x to the 254; 0 for 0. -/
def gfInv (poly x : Nat) : Nat := (List.range 7).foldl (fun acc i => gfMul poly acc (gfSquares poly (i + 1) x)) 1

/-! ## AES-256 -/

/-- The byte substitution of AES: the inverse in its field and an affine map. -/
def aesSub (x : Nat) : Nat :=
  let y := gfInv 0x11B x
  let rot : Nat → Nat := fun k => ((y <<< k) ||| (y >>> (8 - k))) % 256
  y ^^^ rot 1 ^^^ rot 2 ^^^ rot 3 ^^^ rot 4 ^^^ 0x63

def xorBytes (x y : List Nat) : List Nat := List.zipWith (· ^^^ ·) x y

/-- The round constant of the key schedule: 2 to the n. -/
def aesRcon (n : Nat) : Nat := (List.range n).foldl (fun x _ => gfMul 0x11B x 2) 1

/-- The key schedule, latest word first: 60 words of four bytes. -/
def aesKeys (key : List Nat) : List (List Nat) :=
  (List.range 52).foldl (fun ws j =>
    let i := j + 8
    let t := ws.headD []
    let t := if i % 8 = 0 then xorBytes ((t.drop 1 ++ t.take 1).map aesSub) [aesRcon (i / 8 - 1), 0, 0, 0]
      else if i % 8 = 4 then t.map aesSub else t
    xorBytes (ws.getD 7 []) t :: ws)
    ((List.range 8).map (fun i => (key.drop (4 * i)).take 4)).reverse

def aesShift (b : List Nat) : List Nat := (List.range 16).map (fun i => b.getD ((i + 4 * (i % 4)) % 16) 0)

/-- The column mix of a whole block. -/
def aesMix (b : List Nat) : List Nat :=
  (List.range 16).map (fun i =>
    let at_ : Nat → Nat := fun k => b.getD (i / 4 * 4 + (i + k) % 4) 0
    gfMul 0x11B (at_ 0) 2 ^^^ gfMul 0x11B (at_ 1) 3 ^^^ at_ 2 ^^^ at_ 3)

/-- A block of 16 bytes under a key of 32. -/
def aesBlock (key block : List Nat) : List Nat :=
  let ks := (aesKeys key).reverse
  let rk : Nat → List Nat := fun r => ((ks.drop (4 * r)).take 4).flatten
  let mid := (List.range 13).foldl (fun b r => xorBytes (aesMix (aesShift (b.map aesSub))) (rk (r + 1))) (xorBytes block (rk 0))
  xorBytes (aesShift (mid.map aesSub)) (rk 14)

/-! ## XTS and GMAC -/

def nats (bs : List Byte) : List Nat := bs.map (·.toNat)
def ofNats (xs : List Nat) : List Byte := xs.map (BitVec.ofNat 8)

/-- A number of 128 bits, little-endian, and the tweak times the primitive element. -/
def leNats (n x : Nat) : List Nat := nats (leBytes n x)
def xtsNext (t : List Nat) : List Nat :=
  let x := 2 * leNat (ofNats t)
  leNats 16 (if bit x 128 then (x % 2 ^ 128) ^^^ 0x87 else x)

/-- AES-256-XTS of a data unit of whole blocks, with its tweak. -/
def xtsEncrypt (k1 k2 : List Byte) (tweak : Nat) (data : List Byte) : List Byte :=
  let t0 := aesBlock (nats k2) (leNats 16 tweak)
  let block : Nat × List Nat → List Byte × List Nat := fun p =>
    (ofNats (xorBytes (aesBlock (nats k1) (xorBytes (nats ((data.drop (16 * p.1)).take 16)) p.2)) p.2), xtsNext p.2)
  ((List.range (data.length / 16)).foldl (fun acc i =>
    let r := block (i, acc.2)
    (acc.1 ++ r.1, r.2)) (([] : List Byte), t0)).1

/-- The product of GHASH: bit 127 of a number is the coefficient of 1. -/
def ghashMul (x h : Nat) : Nat :=
  ((List.range 128).foldl (fun zv i =>
    (if bit x (127 - i) then zv.1 ^^^ zv.2 else zv.1,
      if bit zv.2 0 then (zv.2 >>> 1) ^^^ 0xE1000000000000000000000000000000 else zv.2 >>> 1)) (0, h)).1

/-- AES-256-GMAC of additional data under a 96-bit IV: 16 bytes. -/
def gmac (k iv data : List Byte) : List Byte :=
  let h := beNat (ofNats (aesBlock (nats k) (List.replicate 16 0)))
  let padded := data ++ List.replicate ((16 - data.length % 16) % 16) 0
  let y := (List.range (padded.length / 16)).foldl (fun y i => ghashMul (y ^^^ beNat ((padded.drop (16 * i)).take 16)) h) 0
  let y := ghashMul (y ^^^ (8 * data.length) * 2 ^ 64) h
  beBytes 16 (y ^^^ beNat (ofNats (aesBlock (nats k) (nats iv ++ [0, 0, 0, 1]))))

/-! ## The Reed-Solomon code of the side band -/

def rsMul (a b : Nat) : Nat := gfMul 0x11D a b

/-- A power of the primitive element, below the 256th. -/
def rsPow (n : Nat) : Nat :=
  (List.range 8).foldl (fun x i => let y := rsMul x x; if bit n (7 - i) then rsMul y 2 else y) 1

/-- The generator, without its leading coefficient, highest power first. -/
def rsGen : List Nat :=
  ((List.range 4).foldl (fun g k =>
    xorBytes (g ++ [0]) (0 :: g.map (fun x => rsMul x (rsPow k)))) [1]).drop 1

/-- The check symbols of a data sequence: the remainder of its division by the generator. -/
def rsCheck (data : List Nat) : List Nat :=
  data.foldl (fun r d =>
    let q := d ^^^ r.headD 0
    xorBytes (r.drop 1 ++ [0]) (rsGen.map (rsMul q))) [0, 0, 0, 0]

/-- Symbols in error: place in the codeword, from its first symbol, and difference. -/
abbrev Errors := List (Nat × Nat)

/-- The value of the symbol at a place in syndrome `k`. -/
def rsAt (place k : Nat) : Nat := rsPow (k * (71 - place))

def rsSyndrome (es : Errors) (k : Nat) : Nat := es.foldl (fun x e => x ^^^ rsMul e.2 (rsAt e.1 k)) 0

/-- Whether differences at some places have given syndromes. -/
def rsFits (syn : List Nat) (es : Errors) : Bool := (List.range 4).map (rsSyndrome es) == syn

/-- Whether an error at two places, given by their values in syndrome 1, can have the syndromes. -/
def rsMayBe (syn : List Nat) (x y : Nat) : Bool :=
  let at_ : Nat → Nat := fun k => syn.getD k 0
  let m := rsMul x y
  (rsMul (at_ 0) m ^^^ rsMul (at_ 1) (x ^^^ y)) == at_ 2 && (rsMul (at_ 1) m ^^^ rsMul (at_ 2) (x ^^^ y)) == at_ 3

/-- The differences at two places that the first two syndromes give. -/
def rsPair (syn : List Nat) (p q : Nat × Nat) : Errors :=
  let s0 := syn.getD 0 0
  let b := rsMul (syn.getD 1 0 ^^^ rsMul s0 p.2) (gfInv 0x11D (p.2 ^^^ q.2))
  [(p.1, s0 ^^^ b), (q.1, b)]

/-- What the decoder takes for the errors of a codeword: none, one or two symbols; no answer where no such pattern fits. -/
def rsDecode (es : Errors) : Option Errors :=
  let syn := (List.range 4).map (rsSyndrome es)
  if syn.all (· == 0) then some []
  else
    let places := (List.range 72).map (fun p => (p, rsAt p 1))
    match places.find? (fun p => rsFits syn [(p.1, syn.getD 0 0)]) with
    | some p => some [(p.1, syn.getD 0 0)]
    | none => places.findSome? (fun p => (places.find? (fun q =>
        p.1 < q.1 && rsMayBe syn p.2 q.2 && rsFits syn (rsPair syn p q))).map (rsPair syn p))

/-- What reading a codeword finds (R356, R428): no error, one or two symbols to correct, a pattern beyond the code, or one that
decodes as something else, which leaves the tag to fail. -/
inductive CodeState where
  | good | correctable | uncorrectable | badTag
  deriving DecidableEq, Repr

/-- Two lists of errors together: differences at one place add. -/
def addErrors (es fs : Errors) : Errors :=
  (List.range 72).filterMap (fun p =>
    let d := (es ++ fs).foldl (fun x e => if e.1 = p then x ^^^ e.2 else x) 0
    if d = 0 then none else some (p, d))

def codeState (es : Errors) : CodeState :=
  if es.isEmpty then .good
  else match rsDecode es with
    | none => .uncorrectable
    | some c => if (addErrors es c).isEmpty then .correctable else .badTag

/-! ## The stored form of a block (R428) -/

/-- The 72 bytes of a block bound under a key triple: ciphertext, the first four bytes of the tag, the check symbols. -/
def storedForm (k : KeyTriple) (pba gen : Nat) (plain : List Byte) : List Byte :=
  let iv := pba + 2 ^ 40 * gen
  let ct := xtsEncrypt k.k1 k.k2 iv plain
  let tag := (gmac k.k3 (leBytes 12 iv) (leBytes 8 pba ++ leBytes 4 gen ++ ct)).take 4
  ct ++ tag ++ ofNats (rsCheck (nats (ct ++ tag)))

end Sys2Proof.Machine
end

