-- ==== Sys2Proof/Machine/Ops.lean ====
section
/-! DEFINITION. Machine/Ops.lean: the operations every instruction shares: the issuer's environment (R9), the checks made
before an instruction's own work (R164, R165, R116, R8), waiting on registers (R152, R173, R174), taking a trap (R388, R389,
R398) and resuming from one (R392, R396, R397), the choice of next PCs and the parting of gangs (R171, R176, R183). -/

namespace Sys2Proof.Machine

/-! ## Cause codes (R387) -/

def cIllegalMajor : Nat := 0x001
def cIllegalMinor : Nat := 0x002
def cReserved : Nat := 0x003
def cTgt : Nat := 0x004
def cPriv : Nat := 0x005
def cLegacy : Nat := 0x006
def cBadMode : Nat := 0x007
def cRegRange : Nat := 0x008
def cMissing : Nat := 0x00A
def cFpOverflow : Nat := 0x040
def cModUnset : Nat := 0x042
def cZFormat : Nat := 0x043
def cPageAbsent : Nat := 0x080
def cProtection : Nat := 0x081
def cWindowKind : Nat := 0x082
def cMisaligned : Nat := 0x083
def cRangeLock : Nat := 0x084
def cFeEmpty : Nat := 0x085
def cPteFormat : Nat := 0x086
def cPoison : Nat := 0x087
def cSpadAbsent : Nat := 0x088
def cRemoteFail : Nat := 0x089
def cFeSplit : Nat := 0x08A
def cEnginePartial : Nat := 0x100
def cCopyRights : Nat := 0x101
def cAccUnalloc : Nat := 0x102
def cAccBand : Nat := 0x103
def cCmdId : Nat := 0x104
def cSegAbsent : Nat := 0x105
def cSegBusy : Nat := 0x106
def cImemFull : Nat := 0x107
def cCopyDesc : Nat := 0x108
def cMatrixDesc : Nat := 0x109
def cBeforeSetw : Nat := 0x140
def cSetwTwice : Nat := 0x141
def cRetEmpty : Nat := 0x142
def cRetFull : Nat := 0x143
def cJoinUnset : Nat := 0x144
def cBasket : Nat := 0x145
def cKernelUnloaded : Nat := 0x146
def cLaunchRange : Nat := 0x147
def cShapeValue : Nat := 0x148
def cWidthDenied : Nat := 0x149
def cSegCross : Nat := 0x14A
def cJoinBusy : Nat := 0x14B
def cJoinMask : Nat := 0x14C
def cLaneRange : Nat := 0x14D
def cBarSplit : Nat := 0x14E
def cBankUe : Nat := 0x180
def cBankRange : Nat := 0x181
def cMicroword : Nat := 0x182
def cBankState : Nat := 0x183
def cSliceViolation : Nat := 0x1C0
def cIntegrity : Nat := 0x1C1
def cBreakpoint : Nat := 0x1E0
def cStep : Nat := 0x1E1
def cDebugHalt : Nat := 0x1E2
def cHandlerSplit : Nat := 0x1E3

/-- Whether a user trap handler may be given the cause (R387, Handler column). -/
def handlerMay (c : Nat) : Bool :=
  !([cPageAbsent, cPoison, cRemoteFail, cKernelUnloaded, cLaunchRange, cBankUe, cSliceViolation, cIntegrity, cStep,
    cDebugHalt, cHandlerSplit].contains c)

/-! ## The issuer -/

/-- A core number of a stack core (R38, R109). -/
def isStack (core : Nat) : Bool := 512 ≤ core

/-- CLUSTER_ID: the cluster a core stands in, or 0x10 and the number of its stack (R38); its cores share a TLB (R1, R346). -/
def clusterId (core : Nat) : Nat := if isStack core then 0x10 + (core - 512) / 16 else core / 128

/-- How many team slots a core has (R111, R346), and its issue ports (R167). -/
def teamSlots (core : Nat) : Nat := if isStack core then 8 else 16
def portCount (core : Nat) : Nat := if isStack core then 4 else 8

def findGang (g : Group) (id : Nat) : Option Gang := g.gangs.find? (fun x => x.id == id)

/-- The environment of the issuer; none where the state names no context or a gang that does not exist. -/
def mkEnv (s : State) : Option Env :=
  match s.who with
  | some (.ctx (.agent c) _) =>
    some { ref := .agent c, core := c, lower := c, slot := 0, gi := 0, team := {}, ctx := (s.core c).ctx, group := {},
           gang := { id := 0, pc := (s.core c).ctx.pc, lanes := 0 } }
  | some (.ctx (.scalar c sl) _) =>
    let t := s.team c sl
    some { ref := .scalar c sl, core := c, lower := c, slot := sl, gi := 0, team := t, ctx := t.ctx, group := {},
           gang := { id := 0, pc := t.ctx.pc, lanes := 0, progress := t.ctx.progress } }
  | some (.ctx (.group c sl g) id) =>
    let gr := s.group c sl g
    match findGang gr id with
    | some ga =>
      some { ref := .group c sl g, core := gr.core, lower := c, slot := sl, gi := g, team := s.team c sl, ctx := gr.ctx,
             group := gr, gang := ga }
    | none => none
  | _ => none

def Env.isAgent (e : Env) : Bool := match e.ref with | .agent _ => true | _ => false
def Env.isScalar (e : Env) : Bool := match e.ref with | .scalar _ _ => true | _ => false
def Env.isGroup (e : Env) : Bool := match e.ref with | .group _ _ _ => true | _ => false

/-- Fields of MR (R156). -/
def mrType (mr : Word) : Nat := bits mr.toNat 3 0
def mrRnd (mr : Word) : Nat := bits mr.toNat 6 4
def mrOvf (mr : Word) : Nat := bits mr.toNat 8 7
def mrFtz (mr : Word) : Bool := bit mr.toNat 9
def mrGrdp (mr : Word) : Nat := bits mr.toNat 12 10
def mrGrdn (mr : Word) : Bool := bit mr.toNat 13

/-- The guard of a lane of a group (R156). -/
def Env.laneGuard (e : Env) (l : Nat) : Bool := (e.group.readP (mrGrdp e.ctx.mr) l) != mrGrdn e.ctx.mr
/-- The guard on the single predicates of the agent slot or of team-scalar mode (R116, R475). -/
def Env.ctxGuard (e : Env) : Bool := (e.ctx.readP (mrGrdp e.ctx.mr)) != mrGrdn e.ctx.mr

/-- gang(g) and active(g) of R9, as ascending lanes. -/
def Env.gangLanes (e : Env) : List Nat := lanesOf e.gang.lanes
def Env.active (e : Env) : List Nat := e.gangLanes.filter e.laneGuard

/-- The lane a frame reports where no lane is named by the cause (R389, TF0). -/
def Env.reportLane (e : Env) : Nat :=
  if e.isGroup then (e.active.head?.getD (e.gangLanes.headD 0)) else 0xFF

/-- The grant, and the segment width of cross-lane instructions (R247). -/
def Env.g (e : Env) : Nat := e.team.g
def Env.seg (e : Env) : Nat := if e.team.w16 then 16 else e.team.g
/-- The thread a lane holds (R122). -/
def Env.thread (e : Env) (l : Nat) : Nat := e.gi * e.team.g + l

/-! ## Checks before an instruction's own work -/

/-- The profile a word is decoded under (R164): L for a W16 team, S on a stack core, C elsewhere on this part. -/
def Env.profileL (e : Env) : Bool := e.team.w16 && !e.isAgent

/-- Majors absent from L (R22, R161), from S and from C. -/
def absentL : List Nat :=
  [0x09, 0x10, 0x11, 0x12, 0x13, 0x1C, 0x1D, 0x26, 0x27, 0x2B, 0x2C, 0x30, 0x31, 0x32, 0x33, 0x34, 0x36, 0x38, 0x39, 0x3C]
def absentS : List Nat := [0x1D, 0x32, 0x33, 0x34, 0x38, 0x39]

/-- The cause of an encoding that the map assigns and the running profile lacks (R164, R166). -/
def absentCause (e : Env) (major minor : Nat) : Option Nat :=
  if e.profileL then
    if major = 0x07 then some cSetwTwice
    else if absentL.contains major then some cIllegalMajor
    else if major = 0x00 && minor = 9 then some cIllegalMinor
    else none
  else if isStack e.core && absentS.contains major then some cIllegalMajor
  else if !isStack e.core && major = 0x36 then some cIllegalMajor
  else if (major = 0x14 && (minor = 25 || minor = 26)) || (major = 0x18 && minor = 13) then some cIllegalMinor
  else none

/-- The first decode-time cause or BEFORE_SETW that applies (R165, R116, R475). -/
def gateTrap (g : Gate) (e : Env) : Option Nat :=
  match absentCause e g.major g.minor with
  | some c => some c
  | none =>
    if e.isAgent && g.agent == .no then some cPriv
    else if !e.isAgent && g.agent == .only then some cPriv
    else if g.named.any (fun r => e.team.regs ≤ r) then some cRegRange
    else if e.profileL && g.legacy then some cLegacy
    else if e.isScalar && !g.scalarOk then some cBeforeSetw
    else none

/-! ## Writing the issuer's context, group and team -/

def putCtx (e : Env) (f : Ctx → Ctx) (s : State) : State := s.setCtx e.ref (f (s.ctx e.ref))
def putGroup (e : Env) (f : Group → Group) (s : State) : State :=
  s.setGroup e.lower e.slot e.gi (f (s.group e.lower e.slot e.gi))
def putTeam (e : Env) (f : Team → Team) (s : State) : State := s.setTeam e.lower e.slot (f (s.team e.lower e.slot))
def putCore (c : Nat) (f : Core → Core) (s : State) : State := s.setCore c (f (s.core c))

/-- Records what the issuer has done of an instruction that waits part-way. -/
def putProgress (e : Env) (p : Progress) (s : State) : State :=
  if e.isGroup then
    putGroup e (fun g => { g with gangs := g.gangs.map (fun x => if x.id == e.gang.id then { x with progress := p } else x) }) s
  else putCtx e (fun c => { c with progress := p }) s

/-! ## Waiting on registers -/

def Env.emptyReg (e : Env) (o : Opnd) : Bool :=
  if o.sc then e.ctx.sEmpty.contains o.reg else e.ctx.vEmpty.contains o.reg

/-- The first source, in order, that is empty: it blocks or traps by its policy (R152). -/
def firstEmpty (e : Env) : List Opnd → Option Bool
  | [] => none
  | o :: r => if o.src && e.emptyReg o then some o.trapEmpty else firstEmpty e r

/-- Pending bits first, then the full and empty policy of each source; then the instruction's work (R173, R174). What is blocked on an
empty register is so marked (R170). -/
def needs (e : Env) (ops : List Opnd) (s : State) (k : Eff) : Eff :=
  if ops.any (fun o => e.ctx.pending o.sc o.reg) then .wait s
  else match firstEmpty e ops with
    | some true => .trap cFeEmpty none 0 s
    | some false => .wait (putProgress e { e.gang.progress with blocked := true } s)
    | none => k

/-- A vector instruction with no active lane does nothing and waits for nothing (R8). -/
def vec (body : Env → State → Eff) : Env → State → Eff :=
  fun e s => if e.active.isEmpty then .done 1 s else body e s

/-- Engine instructions: the whole group, active and present, issues them (R476). -/
def engine (body : Env → State → Eff) : Env → State → Eff :=
  fun e s => if maskOf e.active == e.gang.lanes && e.gang.lanes == e.group.live then body e s
    else .trap cEnginePartial none 0 s

/-- Operands. -/
def srcS (r : Nat) (q : Bool := false) : Opnd := { sc := true, reg := r, src := true, trapEmpty := q }
def dstS (r : Nat) : Opnd := { sc := true, reg := r }
def srcV (r : Nat) (q : Bool := false) : Opnd := { sc := false, reg := r, src := true, trapEmpty := q }
def dstV (r : Nat) : Opnd := { sc := false, reg := r }

/-- `n` consecutive registers from `r`. -/
def span (r n : Nat) : List Nat := (List.range n).map (r + ·)

/-! ## Writing registers through the state -/

def putS (e : Env) (r : Nat) (x : Word) (s : State) : State := s.setCtx e.ref ((s.ctx e.ref).writeS r x)
/-- Vector register writes: (register, lane, value). -/
def Group.writeVs (g : Group) (ws : List (Nat × Nat × Word)) : Group :=
  ws.foldl (fun g w => g.writeV w.1 w.2.1 w.2.2) g
def putVs (e : Env) (ws : List (Nat × Nat × Word)) (s : State) : State := putGroup e (fun g => g.writeVs ws) s
/-- Predicate writes: (predicate, lane, value). -/
def Group.writePs (g : Group) (ws : List (Nat × Nat × Bool)) : Group :=
  ws.foldl (fun g w => g.writeP w.1 w.2.1 w.2.2) g
def putPs (e : Env) (ws : List (Nat × Nat × Bool)) (s : State) : State := putGroup e (fun g => g.writePs ws) s
def orExc (e : Env) (flags : Nat) (s : State) : State := putCtx e (fun c => { c with exc := c.exc ||| word flags }) s

/-- A result that arrives later: its registers become pending, and RESULT_WRITE is due (R173). -/
def sendResult (ref : CtxRef) (sc : Bool) (regs : List Nat) (writes : List (Nat × Word)) (s : State) : State :=
  let c := s.ctx ref
  let r : Result := { seq := s.seq, scalar := sc, regs := regs, writes := writes }
  ({ s.setCtx ref { c with results := c.results ++ [r] } with seq := s.seq + 1 }).due [{ instr := .resultWrite ref s.seq }]

/-! ## Agent events (R400) and interrupts (R59) -/

def raiseEvent (core bitNo : Nat) (s : State) : State :=
  putCore core (fun c => { c with events := setBit c.events bitNo true }) s

/-- An MSI-X message (R59): a vector beyond the function's table is dropped, a masked one is pending. -/
def sendIrq (f vector : Nat) (s : State) : State :=
  let fn := s.func f
  if fn.msixSize ≤ vector then s
  else if fn.msixMasked.contains vector then
    s.setFunc f { fn with msixPending := fn.msixPending.filter (· != vector) ++ [vector] }
  else { s with irqs := s.irqs ++ [(f, vector)] }

/-! ## Event counters (R420 to R422) -/

/-- Whether a function's world counts: enabled and resident. -/
def worldCounts (s : State) (f : Nat) : Bool := bit (s.fcsr f 0x070).toNat 31 && (s.func f).worldResident

/-- Counter k of a function takes `n` more events: a wrap sets its overflow bit and may interrupt. -/
def bumpCounter (f n k : Nat) (s : State) : State :=
  let v := s.fcsr64 f (0x076 + 2 * k) % 2 ^ 48 + n
  let w := v % 2 ^ 48
  let s := (s.setFcsr f (0x076 + 2 * k) (word w)).setFcsr f (0x077 + 2 * k) (word (w / 2 ^ 32))
  if v < 2 ^ 48 then s
  else
    let s := s.setFcsr f 0x071 (setBit (s.fcsr f 0x071) k true)
    let c := (s.fcsr f 0x070).toNat
    if bit c k then sendIrq f (bits c 15 8) s else s

/-- `n` events of a code, counted in the world of the function they are attributed to. -/
def countEvent (f code n : Nat) (s : State) : State :=
  if worldCounts s f then
    (List.range 4).foldl (fun s k => if bits (s.fcsr f (0x072 + k)).toNat 7 0 = code then bumpCounter f n k s else s) s
  else s

/-- A step that the agent of a core takes. -/
def agentDue (core : Nat) (i : Instr) : Due := { who := some (.ctx (.agent core) 0), instr := i }
/-- The firmware of a core stages an action (R391) on a context of the core `site` and executes RTT: for a pair team the lower
core's agent acts on both cores (R392). -/
def agentRtt (core site f action ctxNo : Nat) (i : Instr) : Due :=
  { who := some (.ctx (.agent core) 0), stage := some (word (action + ctxNo * 0x10000)),
    req := some { f := f, args := [0, site + 1] }, instr := i }

/-! ## Frames -/

def Core.frame (c : Core) (n : Nat) : Frame := tget c.frames {} n
def setFrame (core n : Nat) (f : Frame) (s : State) : State :=
  putCore core (fun c => { c with frames := tput c.frames n f }) s

/-- The number of a team-scalar context in frames (R388, R389). -/
def scalarCtxNo (slot : Nat) : Nat := 112 + slot

/-- Whether a team runs under STALL (R282, R284): its kernel is not restartable, or RESTART has ended for it, or its Hamper
filled in this region. -/
def Team.runsStall (t : Team) : Bool := !t.idem || t.stall || t.hamperStall

/-- The action the agent firmware chooses for a new frame (R395, R402). -/
def firmwareChoice (s : State) (t : Team) (fr : Frame) (ctxNo : Nat) : Nat × Instr :=
  if bit (s.fcsr t.f 0x050).toNat 0 && (fr.cause == cBreakpoint || fr.cause == cStep || fr.cause == cDebugHalt) then
    (3, .hold)
  else if fr.cause == cPageAbsent && bit (s.fcsr t.f 0x040).toNat 0 then
    (if t.runsStall then (5, .waitPage) else (6, .abort))
  else if bit t.header.toNat 16 && !fr.handling && ctxNo < 112 && handlerMay fr.cause then (2, .handler)
  else (0, .fail)

/-- The context of a frame: a group's, or a team-scalar context's. -/
def Env.ctxNo (e : Env) : Nat := if e.isScalar then scalarCtxNo e.slot else e.group.ctxNo

/-- A group or team-scalar context stops: its frame is written and NEW, and the TRAP event is raised (R388, R389). -/
def stopCtx (e : Env) (cause lane addr : Nat) (tpc rpc : Word) (s : State) : State :=
  let old := (s.core e.core).frame e.ctxNo
  let fr : Frame :=
    { new := true, handling := old.handling, tslot := (if e.core == e.lower then e.slot else e.team.upperSlot),
      lane := lane, cause := cause, tpc := tpc, rpc := rpc, teamx := e.team.idx, gang := e.gang.lanes,
      addr := (if 0x080 ≤ cause && cause ≤ 0x0BF then addr else 0), record := e.team.record, hidden := old.hidden,
      live := true }
  let s := setFrame e.core e.ctxNo fr s
  let s := if e.isScalar then putTeam e (fun t => { t with stopped := true, stepping := false }) s
    else putGroup e (fun g => { g with stopped := true, stepping := none }) s
  let s := if e.isAgent || e.core == e.lower then s else raiseEvent e.lower 0 s
  raiseEvent e.core 0 s

/-- Taking a trap: the one operation of R388, R389 and R398. A group or team-scalar context stops, and the action its agent's
firmware chooses is due (for a pair team the lower core's agent acts, R392); a trap in the agent slot stops the agent and
reports it to the PF. -/
def takeTrap (e : Env) (cause lane addr : Nat) (tpc rpc : Word) (s : State) : State :=
  match e.ref with
  | .agent c =>
    let n := if isStack c then 0x0C4 + (c - 512) / 32 else 0x0B0 + c / 32
    let s := putCore c (fun x => { x with agentStopped := true, agentWork := false }) s
    sendIrq 0 0 { s with csr := tput s.csr n (setBit (tget s.csr 0 n) ((if isStack c then c - 512 else c) % 32) true) }
  | _ =>
    let s := stopCtx e cause lane addr tpc rpc s
    let ch := firmwareChoice s (s.team e.lower e.slot) ((s.core e.core).frame e.ctxNo) e.ctxNo
    s.due [agentRtt e.lower e.core e.team.f ch.1 e.ctxNo ch.2]

/-- Resuming a context (R392): the frame is cleared and its gangs issue again, the trapping gang at `pc`; the streak has
ended, and every gang has waited since now (R176). -/
def resumeCtx (e : Env) (no : Nat) (pc : Word) (lanes : BitVec 64) (s : State) : State :=
  let old := (s.core e.core).frame no
  let s := setFrame e.core no (if old.handling then { handling := true, hidden := old.hidden, gang := old.gang } else {}) s
  if e.isScalar then putTeam e (fun t => { t with stopped := false, ctx := { t.ctx with pc := pc } }) s
  else putGroup e (fun g =>
    { g with
      stopped := false
      streak := 32
      gangs := g.gangs.map (fun ga =>
        { ga with pc := if ga.lanes == lanes then pc else ga.pc, stamp := s.time, born := s.time }) }) s

/-- The check of a value for MR (R160): reserved bits, then TYPE 15 and RND 5 to 7. -/
def mrCause (x : Nat) : Option Nat :=
  if bits x 31 14 != 0 then some cReserved
  else if bits x 3 0 = 15 || 5 ≤ bits x 6 4 then some cBadMode
  else none

/-! ## Next PCs and gangs -/

/-- The logical slot and the word of a PC (R131). -/
def pcSlot (pc : Word) : Nat := bits pc.toNat 17 12
def pcWord (pc : Word) : Nat := bits pc.toNat 11 2

/-- The key by which gangs wait: when a gang last issued, or when it was created (R176). -/
def Gang.waited (g : Gang) : Nat := if g.stamp = 0 then g.born else g.stamp

/-- Distinct next PCs, ascending (R183). -/
def distinctPcs (ds : List (Nat × Word)) : List Word :=
  ((ds.map (fun d => d.2.toNat)).eraseDups.mergeSort (· ≤ ·)).map word

/-- The gangs that the lanes of one gang become, one for each next PC in ascending order; lanes given no PC leave it. -/
def splitGang (g : Group) (ga : Gang) (ds : List (Nat × Word)) (now : Nat) : Group :=
  match distinctPcs ds with
  | [] => { g with gangs := g.gangs.filter (fun x => x.id != ga.id), streak := 0 }
  | [pc] =>
    { g with gangs := g.gangs.map (fun x => if x.id == ga.id then
        { x with pc := pc, lanes := maskOf (ds.map (·.1)), progress := {} } else x) }
  | pcs =>
    let fresh : List Gang := pcs.zipIdx.map (fun p =>
      { id := g.nextGang + p.2, pc := p.1, lanes := maskOf ((ds.filter (fun d => d.2 == p.1)).map (·.1)), born := now })
    { g with gangs := g.gangs.filter (fun x => x.id != ga.id) ++ fresh, nextGang := g.nextGang + pcs.length,
             current := g.nextGang, streak := 0 }

/-- Control instructions: each lane's next PC, none for a lane that parks or finishes (R183). -/
def sendLanes (e : Env) (ds : List (Nat × Option Word)) (s : State) : State :=
  putGroup e (fun g => splitGang g e.gang (ds.filterMap (fun d => d.2.map (fun p => (d.1, p)))) (s.time + 1)) s

/-- Sequential fetch that ran off the end of the slot (R134): the gang that stands at `next` traps with SEG_CROSS.
DESIGN CHOICE (log 124): past the end of slot 63 that PC is 0x0004_0000, which names no slot. -/
def crossCheck (e : Env) (seq : Bool) (next : Word) (s : State) : State :=
  if seq && pcWord next = 0 && !e.isAgent then
    let ga := if e.isGroup then
        ((s.group e.lower e.slot e.gi).gangs.find? (fun x => x.pc == next && (x.lanes &&& e.gang.lanes) != 0)).getD e.gang
      else e.gang
    let e' := { e with gang := ga }
    takeTrap e' cSegCross (if e.isGroup then (lanesOf ga.lanes).headD 0 else 0xFF) 0 next next s
  else s

/-! ## Issuing -/

/-- The issued quads of a gang: those with an active lane (R168). -/
def Env.quads (e : Env) : Nat := ((e.active.map (· / 4)).eraseDups).length

/-- Port cycles (R168). -/
def gateCost (g : Gate) (e : Env) : Nat :=
  let t := mrType e.ctx.mr
  let factor := if t = 2 || t = 3 || t = 5 then g.wide else 1
  if g.quadCost = 0 || e.quads = 0 then 1 else g.quadCost * factor * e.quads + g.extra

/-- Cycles of a core's clock: ATIMER counts down, and reaching 0 is the TIMER event (R2, R391, R400). -/
def coreTicks (core n : Nat) (s : State) : State :=
  let left := (s.core core).atimer.toNat
  let s := putCore core (fun c => { c with clk := c.clk + n, atimer := word (left - n) }) s
  if 0 < left && left ≤ n then raiseEvent core 6 s else s

/-- Accounts for an issue: the clock, the stamps and the streak (R175, R176). -/
def issued (e : Env) (cost : Nat) (s : State) : State :=
  let s := coreTicks e.core cost { s with time := s.time + 1 }
  let s := if e.isAgent then s else countEvent e.team.f 0x01 1 s
  match e.ref with
  | .agent c => putCore c (fun x => { x with agentStamp := s.time }) s
  | .scalar _ _ => putTeam e (fun t => { t with stamp := s.time }) s
  | .group _ _ _ =>
    putGroup e (fun g =>
      { g with
        stamp := s.time
        streak := if g.current == e.gang.id then g.streak + 1 else g.streak
        gangs := g.gangs.map (fun x => if x.id == e.gang.id then { x with stamp := s.time } else x)
        stepping := g.stepping.map (fun st => { todo := st.todo.filter (· != e.gang.id) }) }) s

/-- The context stands at the next instruction in sequence. -/
def advance (e : Env) (pc : Word) (s : State) : State :=
  match e.ref with
  | .group _ _ _ => putGroup e (fun g => { g with
      gangs := g.gangs.map (fun x => if x.id == e.gang.id then { x with pc := pc, progress := {} } else x) }) s
  | _ => putCtx e (fun c => { c with pc := pc, progress := {} }) s

/-- The unfinished lanes that stand in no gang: they are parked (R191). -/
def Group.parkedLanes (g : Group) : List Nat := (lanesOf g.live).filter (fun l => g.gangs.all (fun x => !x.lanes.getLsbD l))

/-- The gang of a parked lane: the lanes that parked where it did, at that PC (R191). -/
def parkedGang (g : Group) (l : Nat) : Gang :=
  let at_ : Nat → Word := fun k => tget g.parkPc 0 k
  { id := g.nextGang, pc := at_ l, lanes := maskOf (g.parkedLanes.filter (fun k => at_ k == at_ l)) }

/-- The gang a STEP or DEBUG_HALT frame names (R389): the one whose lowest thread is lowest, among the gangs and the parked
lanes (R191). -/
def reportGang (g : Group) : Option Gang :=
  ((g.gangs ++ (g.parkedLanes.take 1).map (parkedGang g)).mergeSort (fun a b =>
    (lanesOf a.lanes).headD 64 ≤ (lanesOf b.lanes).headD 64)).head?

/-- The end of a debug step (R181): once every gang has issued, the group stops with STEP; a team-scalar context has one
path. -/
def stepCheck (e : Env) (s : State) : State :=
  if e.isScalar then
    let t := s.team e.lower e.slot
    if t.stepping && !t.stopped && t.status == .scalar then
      takeTrap { e with team := t, ctx := t.ctx } cStep 0xFF 0 t.ctx.pc t.ctx.pc s
    else s
  else if e.isGroup then
    let g := s.group e.lower e.slot e.gi
    match g.stepping, reportGang g with
    | some st, some ga =>
      if g.stopped || st.todo.any (fun id => g.gangs.any (fun x => x.id == id)) then s
      else takeTrap { e with gang := ga, group := g } cStep ((lanesOf ga.lanes).headD 0) 0 ga.pc ga.pc s
    | _, _ => s
  else s

/-- The word after `len` words at the issuer's PC. -/
def nextPc (e : Env) (len : Nat) : Word := e.gang.pc + word (4 * len)

/-- What remains of an issue after the instruction's own work. -/
def settle (g : Gate) (e : Env) : Eff → State
  | .done len s =>
    { stepCheck e (crossCheck e true (nextPc e len) (advance e (nextPc e len) (issued e (gateCost g e) s))) with
      who := none }
  | .moved s => { stepCheck e (issued e (gateCost g e) s) with who := none }
  | .trap c l a s =>
    let rpc := if c == cBreakpoint || 0x1F0 ≤ c then nextPc e 1 else e.gang.pc
    { takeTrap e c (l.getD e.reportLane) a e.gang.pc rpc (putProgress e {} (issued e (gateCost g e) s)) with who := none }
  | .wait s => { s with who := none, waited := true }

/-- The issuer stalls until its team is confirmed, and then issues the instruction again from its start (R93). -/
def stallProv (e : Env) (s : State) : Eff := .wait (putProgress e { stall := true } s)

/-- Whether the issuer stands in such a stall (R93). -/
def Env.stalled (e : Env) : Bool := e.team.prov && e.gang.progress.stall

/-- One instruction: the gate, then its own work. Without an issuer nothing can execute. -/
def run (g : Gate) (body : Env → State → Eff) (s : State) : Host.Outcome State Fault Refusal :=
  match mkEnv s with
  | none => .fault .noIssuer
  | some e => .next (settle g e (if e.stalled then .wait s else match gateTrap g e with
      | some c => .trap c none 0 s
      | none => body e s))

/-- A device, agent or host event: it always answers a next state. -/
def event (f : State → State) (s : State) : Host.Outcome State Fault Refusal := .next { f s with who := none, request := none }

end Sys2Proof.Machine
end

