-- ==== Sys2Proof/Machine/Memory.lean ====
section
/-! DEFINITION. Machine/Memory.lean: where bytes live and how they are read and written: the slice map and the shared-memory
layout (R347, R425, R426, R431), the page walk and the TLBs (R274 to R277), windows (R264 to R273), range locks (R296), the
L1s, the Hamper and the homes (R95, R96, R300, R305, R382, R383), poison and errors (R356, R429, R441, R442). -/

namespace Sys2Proof.Machine

/-! ## Home addresses

A byte's home is one natural number: bits 47 to 0 the address, 49 and 48 the target of R265, 55 to 50 the device of a remote
page; scratchpad bytes stand above 2^60, 2^24 apart for each core. -/

def hSpad (core off : Nat) : Nat := 0x1000000000000000 + core * 0x1000000 + off
def hIsSpad (h : Nat) : Bool := 0x1000000000000000 ≤ h
def hSpadCore (h : Nat) : Nat := (h - 0x1000000000000000) / 0x1000000
def hSpadOff (h : Nat) : Nat := h % 0x1000000
def hTarget (h : Nat) : Nat := h / 0x1000000000000 % 4
def hAddr (h : Nat) : Nat := h % 0x1000000000000
def hDev (h : Nat) : Nat := h / 0x4000000000000 % 64
def hMake (target dev addr : Nat) : Nat := dev * 0x4000000000000 + target * 0x1000000000000 + addr

/-! ## What a function owns -/

def nlb (s : State) (f : Nat) : Nat := bits (s.fcsr f 0x109).toNat 13 0
def nrb (s : State) (f : Nat) : Nat := bits (s.fcsr f 0x109).toNat 31 24
/-- Bytes of slice-logical stack memory (R347): 256 rows of 2 KiB for each row block of each bank. -/
def stackExtent (s : State) (f : Nat) : Nat := nlb s f * nrb s f * 0x80000

/-- Ways of shared memory a function owns, ascending (R423). -/
def ownedWays (s : State) (f : Nat) : List Nat := (List.range 16).filter (fun w => bit (s.fcsr f 0x10A).toNat w)
/-- Its lowest T1WAYS ways hold its target-1 memory (R425). -/
def t1Ways (s : State) (f : Nat) : List Nat := (ownedWays s f).take (bits (s.fcsr f 0x10A).toNat 19 16)
def sharedExtent (s : State) (f : Nat) : Nat := (t1Ways s f).length * 0x1000000

/-- The function whose target-1 memory holds a shared-memory address (R425). -/
def t1Owner (s : State) (pa : Nat) : Option Nat := (List.range 32).find? (fun f => (t1Ways s f).contains (pa / 0x1000000))

/-- The function an agent serves (R55, R346): the owner of its octet or of its stack core, else the PF. -/
def servedBy (s : State) (core : Nat) : Nat :=
  ((List.range 32).find? (fun f =>
    if isStack core then bit (s.fcsr f (0x105 + (core - 512) / 32)).toNat ((core - 512) % 32)
    else bit (s.fcsr64 f 0x100) (core / 8) || (bit (s.fcsr64 f 0x102) (core / 8) && (s.func f).worldResident))).getD 0

/-- The cores whose agents serve a function, ascending. -/
def servingCores (s : State) (f : Nat) : List Nat := (List.range 640).filter (fun c => servedBy s c == f)

/-- Whether the bytes of an agent's access exist (R265). -/
def agentRangeBad (s : State) (pa size : Nat) : Bool :=
  pa / 0x4000000000000 != 0 || hTarget pa == 3 ||
    (hTarget pa == 0 && Config.stackBytes < hAddr pa + size) ||
    (hTarget pa == 1 && (Config.sharedBytes < hAddr pa + size || (t1Owner s (hAddr pa)).isNone))

/-! ## The slice map (R347, R348, R426, R431) -/

def mapKey (bank rb : Nat) : Nat := bank * 128 + rb
def mapEntry (s : State) (f bank rb : Nat) : Nat := tget (s.func f).map 0 (mapKey bank rb)

/-- Device physical stack address of a row's first byte, from a map entry. -/
def entryPa (entry row : Nat) : Nat :=
  bits entry 28 26 * 0x1000000000 + bits entry 25 22 * 0x100000000 + bits entry 21 16 * 0x4000000 +
    (256 * bits entry 15 9 + row % 256) * 0x800

/-- The home of byte `off` of row `row` of a logical bank; none where the bank, the row or the mapping does not exist. -/
def bankHome (s : State) (f bank row off : Nat) : Option Nat :=
  let en := mapEntry s f bank (row / 256)
  if bank < nlb s f && row < 256 * nrb s f && bit en 31 then some (hMake 0 0 (entryPa en row + off)) else none

/-- The home of a slice-logical stack address (R347); none answers SLICE_VIOLATION (R276). -/
def stackHome (s : State) (f a : Nat) : Option Nat :=
  if a < stackExtent s f then bankHome s f (a / 0x800 % nlb s f) (a / 0x800 / nlb s f) (a % 0x800) else none

/-- The home of a slice-logical shared-memory address (R425). -/
def sharedHome (s : State) (f a : Nat) : Option Nat :=
  ((t1Ways s f)[a / 0x1000000]?).map (fun w => hMake 1 0 (w * 0x1000000 + a % 0x1000000))

/-- Physical row block of a stack address (R426), and its place in the row-block table. -/
def rbKey (pa : Nat) : Nat := pa / 0x80000
def rowBlock (s : State) (pa : Nat) : RowBlock := tget s.rowBlocks {} (rbKey pa)
/-- The function a stack address is bound to (R430). -/
def boundTo (s : State) (pa : Nat) : Option Nat := let b := rowBlock s pa; if b.bound then some b.owner else none
/-- The slice-logical address of a stack byte for its owner: the map read backwards, by the entry that names the block. -/
def logicalOf (s : State) (f pa : Nat) : Nat :=
  match (s.func f).map.find? (fun e => bit e.2 31 && entryPa e.2 0 / 0x80000 == pa / 0x80000) with
  | some e =>
    let row := e.1 % 128 * 256 + pa / 0x800 % 256
    (row * nlb s f + e.1 / 128) * 0x800 + pa % 0x800
  | none => 0

/-! ## Stopped domains (R469, R470) -/

/-- The throttle domain of a core; a domain stands stopped at step 5. -/
def coreDomain (core : Nat) : Nat := if isStack core then 64 + (core - 512) / 16 else core / 8
def domainStopped (s : State) (d : Nat) : Bool := tget s.domains 0 d == 5
def coreRuns (s : State) (core : Nat) : Bool := !domainStopped s (coreDomain core)

/-- The stack of an address. -/
def stackOf (pa : Nat) : Nat := pa / 0x1000000000

/-- No cause of the spec's: the access waits at the controller of a stopped stack, or at a stopped core (R470). -/
def cHeldUp : Nat := 0x200

/-- Whether an access to a stack block waits: its stack is stopped, and the line is not resident in shared memory (R470). -/
def rowsHeld (s : State) (pa : Nat) : Bool := domainStopped s (64 + stackOf pa) && (tget s.resident none (pa / 64)).isNone

/-! ## Keys and stored blocks (R427, R428) -/

/-- A function's key slot in a stack's base die, and whether its slots hold keys: every stack holds the same triple. -/
def keySlot (s : State) (stack f : Nat) : Option KeyTriple := tget s.keySlots none (32 * stack + f)
def keyed (s : State) (f : Nat) : Bool := (keySlot s 0 f).isSome

/-- The symbols in error of a stored block. -/
def errorsAt (s : State) (pa : Nat) : Errors := tget s.bad [] (pa / 64)

/-- The 72 bytes of a block as they stand in the array: the stored form under the keys and the generation of its binding, zero
in an unbound row block, with the symbols in error (R428, R430). -/
def storedBlock (s : State) (pa : Nat) : List Byte :=
  let b := rowBlock s pa
  let form := if b.bound then storedForm b.keys (pa / 64) b.pgen (readBytes s.mem (pa / 64 * 64) 64) else List.replicate 72 0
  form.zipIdx.map (fun x => x.1 ^^^ BitVec.ofNat 8 (((errorsAt s pa).find? (fun e => e.1 == x.2)).map (·.2) |>.getD 0))

/-- A byte of stored ciphertext. -/
def storedByte (s : State) (pa : Nat) : Byte := (storedBlock s pa).getD (pa % 64) 0

/-! ## Reservations (R303) -/

/-- Threads are numbered by group key and lane; lane 64 stands for the lanes of a gang together, for scalar stores and atomics. -/
def threadId (key lane : Nat) : Nat := key * 128 + lane + 1

/-- The writer of a scalar store or atomic of a gang: the gang's lanes stand above bit 40, since each of them executes it
(log 128). -/
def gangWriter (key : Nat) (lanes : BitVec 64) : Nat := threadId key 64 + 0x10000000000 * (1 + lanes.toNat)

/-- Whether a write is the own write of a lane of a group. -/
def ownWrite (writer key lane : Nat) : Bool :=
  writer % 0x10000000000 == threadId key lane ||
    (writer % 0x10000000000 == threadId key 64 && 0x10000000000 ≤ writer &&
      Nat.testBit (writer / 0x10000000000 - 1) lane)

/-- Reservations on a line that a write by another party loses. -/
def loseReservations (writer line : Nat) (s : State) : State :=
  let hit : Option Reservation → Bool := fun r => r == some { line := line }
  let gs := s.groups.map (fun e => (e.1, { e.2 with reserv := e.2.reserv.map (fun r =>
    (r.1, if hit r.2 && !ownWrite writer e.1 r.1 then none else r.2)) }))
  let ts := s.teams.map (fun e =>
    (e.1, if hit e.2.reservation && threadId (e.1 * 128) 65 != writer then { e.2 with reservation := none } else e.2))
  let cs := s.cores.map (fun e =>
    (e.1, if hit e.2.reservation && threadId (teamKey e.1 0 * 128) 66 != writer then { e.2 with reservation := none }
      else e.2))
  let rs := s.remoteRes.map (fun e => (e.1, if hit e.2 && e.1 != writer then none else e.2))
  { s with groups := gs, teams := ts, cores := cs, remoteRes := rs }

/-! ## Error records (R442) and poison (R441) -/

/-- The row of a written byte is dirty while its row block is being copied (R439). -/
def markRow (h : Nat) (s : State) : State :=
  let rb := rowBlock s (hAddr h)
  if hTarget h = 0 && rb.tracking then
    let r := hAddr h / 0x800 % 256
    { s with rowBlocks := tput s.rowBlocks (rbKey (hAddr h)) { rb with dirty := rb.dirty.filter (· != r) ++ [r] } }
  else s

/-- Bytes of one block written by the controller at a device address: reservations on its line are lost (R303), and an address that
R265 refuses to an agent, or that is the host's, takes nothing here. -/
def rawWrite (h : Nat) (bs : List Byte) (s : State) : State :=
  if agentRangeBad s h bs.length || 2 ≤ hTarget h then s
  else
    let s := markRow h (((bs.zipIdx.map (fun p => (h + p.2) / 64)).eraseDups).foldl (fun s ln => loseReservations 0 ln s) s)
    { s with mem := writeCells s.mem (bs.zipIdx.map (fun p => (h + p.2, p.1))) }

/-- The poison table of a stack (R441), and whether a block is poisoned. -/
def poisonOf (s : State) (pa : Nat) : List Nat := tget s.poison [] (stackOf pa)
def isPoisoned (s : State) (pa : Nat) : Bool := (poisonOf s pa).contains (pa / 64) || (rowBlock s pa).pz

/-- A stack address that stands in a poisoned block. -/
def poisonedHome (s : State) (h : Nat) : Bool := hTarget h = 0 && isPoisoned s (hAddr h)

/-- Records of a function's ring. DESIGN CHOICE (log 121): a size that is no power of two from 16 to 32,768 is no ring, and counts as 0. -/
def ringSize (s : State) (f size : Nat) : Nat :=
  let n := bits (s.fcsr f size).toNat 15 0
  if 16 ≤ n && n ≤ 32768 && n &&& (n - 1) = 0 then n else 0

/-- Whether a ring takes no record: it is full, or there is none. -/
def ringFull (s : State) (f size tail head : Nat) : Bool :=
  ringSize s f size ≤ ((s.fcsr f tail).toNat + 0x100000000 - (s.fcsr f head).toNat) % 0x100000000

/-- Where the next record of a ring goes: the base counts from its 32-byte boundary (log 121). -/
def ringSlot (s : State) (f base size tail : Nat) : Nat :=
  bits (s.fcsr64 f base) 55 0 / 32 * 32 + 32 * ((s.fcsr f tail).toNat % ringSize s f size)

/-- Appends a record of 32 bytes to a function's ring, which stands at `base`; full rings set overflow and may interrupt once
(R281, R442). `size`, `tail` and `head` are its registers, `ovReg` and `ovBit` the place of overflow, `ctl` the interrupt control. The
record of a slot that stands in a poisoned block is dropped; the answer is the address where that happened. -/
def ringStep (f base size tail head ovReg ovBit ctl : Nat) (bs : List Byte) (s : State) : Option Nat × State :=
  let t := (s.fcsr f tail).toNat
  let c := (s.fcsr f ctl).toNat
  if ringSize s f size = 0 then (none, s)
  else if ringFull s f size tail head then
    let had := bit (s.fcsr f ovReg).toNat ovBit
    let s := s.setFcsr f ovReg (setBit (s.fcsr f ovReg) ovBit true)
    (none, if !had && bit c 8 then sendIrq f (bits c 7 0) s else s)
  else
    let h := ringSlot s f base size tail
    let lost := if poisonedHome s h then some (hAddr h) else none
    let s := if lost.isSome then s else rawWrite h bs s
    let s := s.setFcsr f tail (word (t + 1))
    (lost, if bit c 8 then sendIrq f (bits c 7 0) s else s)

/-- The bytes of an error record. -/
def errorBytes (logical pa kind source : Nat) : List Byte :=
  leBytes 8 logical ++ leBytes 8 pa ++ leBytes 1 kind ++ leBytes 1 source ++ leBytes 14 0

/-- A record in a function's error ring. -/
def errorRing (f : Nat) (bs : List Byte) (s : State) : Option Nat × State := ringStep f 0x110 0x112 0x113 0x114 0x115 9 0x115 bs s

/-- An error record of a block, for the owner of its row block (R442). One that itself meets a poisoned block is dropped, which is
recorded in turn, as often as the ring has room. -/
def errorRecords : Nat → Nat → Nat → Nat → State → State
  | 0, _, _, _, s => s
  | n + 1, pa, kind, source, s =>
    match boundTo s pa with
    | none => s
    | some f =>
      let blk := pa / 64 * 64
      match errorRing f (errorBytes (logicalOf s f blk) blk kind source) s with
      | (some at_, s) => errorRecords n at_ 3 0 s
      | (none, s) => s

def errorRecord (pa kind source : Nat) (s : State) : State := errorRecords 32768 pa kind source s

/-- A ring's record, with the record of its own loss where it meets a poisoned block (R442). -/
def noteLost : Option Nat × State → State
  | (some at_, s) => errorRecord at_ 3 0 s
  | (none, s) => s

/-- Enters a block in the poison table, with its record; a full table sets PZ and writes the second record (R441). -/
def poisonBlock (pa kind source : Nat) (s : State) : State :=
  let t := poisonOf s pa
  if t.length < 4096 then errorRecord pa kind source { s with poison := tput s.poison (stackOf pa) (t ++ [pa / 64]) }
  else
    let s := { s with rowBlocks := tput s.rowBlocks (rbKey pa) { rowBlock s pa with pz := true } }
    errorRecord (rbKey pa * 0x80000) 5 source (errorRecord pa kind source s)

/-- A corrected block: it is rewritten whole, and the slice's count goes up (R356 step 3). -/
def correctBlock (pa : Nat) (s : State) : State :=
  let s := { s with bad := tdel s.bad (pa / 64) }
  match boundTo s pa with
  | some f => countEvent f 0x06 1 (s.setFcsr f 0x10F (word (min ((s.fcsr f 0x10F).toNat + 1) 0xFFFFFFFF)))
  | none => s

/-- Reading a stack block (R356 steps 1 to 6): a poisoned block, symbols that the code corrects, a pattern beyond the code, and
one that decodes as something else, which leaves the tag to fail (R428). The rows of a stopped stack answer nothing yet (R470). -/
def checkBlock (pa source : Nat) (s : State) : Option Nat × State :=
  if rowsHeld s pa then (some cHeldUp, s)
  else if isPoisoned s pa then (some cPoison, s)
  else match codeState (errorsAt s pa) with
    | .good => (none, s)
    | .correctable => (none, correctBlock pa s)
    | .uncorrectable => (some cPoison, poisonBlock pa 1 source s)
    | .badTag => (some cIntegrity, poisonBlock pa 2 source s)

/-! ## Homes -/

/-- ShapePosted of a line, at every agent of the function that owns it: the launches whose shape word it holds are examined (R91,
R400). -/
def shapePosted (f line : Nat) (s : State) : State :=
  (servingCores s f).foldl (fun s c => (raiseEvent c 4 s)) (s.due ((servingCores s f).take 1 |>.map (fun c =>
    { agentDue c (.settlement c f 0) with req := some { f := f, args := [line] } })))

/-- A 64-bit value at a home in device memory. -/
def home64 (s : State) (h : Nat) : Nat := leNat (readBytes s.mem h 8)

/-- An atomic that leaves the COUNT of a live graph block at 0: the bank ALU raises GraphIdle for the function of NOTIFY (R83).
Graph blocks are what the Baskets of the owner's node table name. -/
def graphCheck (h : Nat) (s : State) : State :=
  match (if hTarget h = 1 && !hIsSpad h then t1Owner s (hAddr h) else none) with
  | none => s
  | some f =>
    let isGraph := (List.range (bits (s.fcsr f 0x0D8).toNat 10 0)).any (fun k =>
      home64 s (s.fcsr64 f 0x0D6 % 2 ^ 56 + 64 * k + 0x10) == h)
    if isGraph && leNat (readBytes s.mem h 4) = 0 && leNat (readBytes s.mem (h + 8) 4) % 4 < 2 then
      let g := leNat (readBytes s.mem (h + 12) 4) % 32
      let s := (servingCores s g).foldl (fun s c => raiseEvent c 7 s) s
      s.due ((servingCores s g).take 1 |>.map (fun c => agentDue c (.graphIdle c g h)))
    else s

/-- A granule becomes full, or empty (R297). -/
def setFull (g : Nat) (gs : List Nat) : List Nat := if gs.contains g then gs else gs ++ [g]
def setEmpty (g : Nat) (gs : List Nat) : List Nat := gs.filter (· != g)

/-- A write of one byte at its home in this device (targets 0 and 1, scratchpad): the byte, the row's dirty mark while its
row block is being copied (R439), the reservations it conflicts with. -/
def homeByteWrite (writer h : Nat) (b : Byte) (s : State) : State :=
  let s := loseReservations writer (h / 64) s
  if hIsSpad h then
    putCore (hSpadCore h) (fun c =>
      { c with spad := writeByte c.spad (hSpadOff h) b, gfull := setFull (hSpadOff h / 16) c.gfull }) s
  else
    let s := markRow h s
    { s with mem := writeByte s.mem h b }

/-- A write that covers a queue's KICK word wakes every agent of the function (R46). -/
def kickWords (cells : List (Nat × Byte)) (s : State) : State :=
  match cells with
  | [] => s
  | (h, _) :: _ =>
    match (if hTarget h = 1 && !hIsSpad h then t1Owner s (hAddr h) else none) with
    | none => s
    | some f =>
      let base := s.fcsr64 f 0x0D0 % 2 ^ 56
      if base = 0 then s
      else s.due (((List.range 8).filter (fun q => cells.any (fun c => base + 64 * q + 0x28 ≤ c.1 && c.1 < base + 64 * q + 0x2C))).map
        (fun q => { instr := .kick f q }))

/-- A stored block is good again: it leaves the poison table, and a whole one has no symbol in error (R441, R356). -/
def mendBlock (h : Nat) (whole : Bool) (s : State) : State :=
  if hTarget h = 0 then
    { s with poison := tput s.poison (stackOf (hAddr h)) ((poisonOf s (hAddr h)).filter (· != hAddr h / 64)),
             bad := if whole then tdel s.bad (hAddr h / 64) else s.bad }
  else s

/-- Bytes of a line of device memory written at their homes; a change to a watched line raises ShapePosted (R91). -/
def lineStore (writer h : Nat) (cells : List (Nat × Byte)) (s : State) : State :=
  let changed := cells.any (fun c => readByte s.mem c.1 != c.2)
  let s := kickWords cells (cells.foldl (fun s c => homeByteWrite writer c.1 c.2 s) s)
  if hTarget h = 1 && changed && s.watch.contains (hAddr h / 64) then
    match t1Owner s (hAddr h) with
    | some f => shapePosted f (hAddr h / 64) s
    | none => s
  else s

/-- A write of bytes of one 64-byte line at its home: a partial write of a poisoned block is dropped with a record, a whole
one makes it good (R441, R442). -/
def homeLineWrite (writer : Nat) (cells : List (Nat × Byte)) (s : State) : State :=
  match cells with
  | [] => s
  | (h, _) :: _ =>
    if hIsSpad h then cells.foldl (fun s c => homeByteWrite writer c.1 c.2 s) s
    else
      let pa := hAddr h
      let whole := 64 ≤ ((cells.map (·.1)).eraseDups).length
      if poisonedHome s h && !whole then errorRecord pa 3 0 s
      else lineStore writer h cells (mendBlock h whole s)

/-- A write of bytes at their homes, line by line. -/
def homeWrite (writer : Nat) (cells : List (Nat × Byte)) (s : State) : State :=
  ((cells.map (fun c => c.1 / 64)).eraseDups).foldl
    (fun s ln => homeLineWrite writer (cells.filter (fun c => c.1 / 64 == ln)) s) s

/-- A byte at its home in this device. -/
def homeByte (s : State) (h : Nat) : Byte :=
  if hIsSpad h then readByte (s.core (hSpadCore h)).spad (hSpadOff h) else readByte s.mem h

/-- Reading blocks of stack memory: the first block that fails gives the cause. -/
def checkHomes (hs : List Nat) (s : State) : Option Nat × State :=
  ((hs.filter (fun h => !hIsSpad h && hTarget h == 0)).map (fun h => hAddr h / 64)).eraseDups.foldl
    (fun r b => match r.1 with
      | some c => (some c, r.2)
      | none => checkBlock (b * 64) 0 r.2) (none, s)

/-! ## Residency in shared memory (R305, R306, R365) -/

/-- Lines a function's ways can hold besides its target-1 memory, and how many of them are retained. -/
def retainRoom (s : State) (f : Nat) : Nat := ((ownedWays s f).length - (t1Ways s f).length) * 0x40000
def isRetained (r : Nat × Option (List Mark)) : Bool :=
  match r.2 with
  | some (_ :: _) => true
  | _ => false
def ownLines (s : State) (f : Nat) : Tbl (Option (List Mark)) := s.resident.filter (fun r => boundTo s (r.1 * 64) == some f)
def retainedBy (s : State) (f : Nat) : Nat := ((ownLines s f).filter isRetained).length

/-- The declared rows of a running bank-unit context stay out of shared memory (R365). -/
def keptOut (s : State) (pa : Nat) : Bool :=
  match boundTo s pa with
  | none => false
  | some f =>
    let row := logicalOf s f pa / 0x800
    let u := s.unit (unitKey f (row % nlb s f))
    (u.run == .running || u.run == .paused) && u.rowFirst ≤ row / nlb s f && row / nlb s f < u.rowFirst + u.rowCount

/-- Where a function's ways are full, the lowest of its lines that no team retains leaves them. -/
def makeRoom (f : Nat) (s : State) : State :=
  if s.resident.length < retainRoom s f then s
  else if (ownLines s f).length < retainRoom s f then s
  else match (ownLines s f).find? (fun r => !isRetained r) with
    | some r => { s with resident := tdel s.resident r.1 }
    | none => s

/-- A line of a target-0 page that an access reaches is made resident in the ways of the function that owns it, and counted
for it (R305, R422); `mark` is the team that retains it, if one does (R306). A line that is resident keeps the marks it has. -/
def reachLine (line : Nat) (mark : List Mark) (s : State) : State :=
  match tget s.resident none line with
  | some ms => if mark.isEmpty then s else { s with resident := tput s.resident line (some ((ms.filter (!mark.contains ·)) ++ mark)) }
  | none =>
    match boundTo s (line * 64) with
    | none => s
    | some f =>
      if retainRoom s f = 0 || keptOut s (line * 64) then s
      else
        let s := makeRoom f s
        countEvent f 0x04 1 { s with resident := tput s.resident line (some mark) }

/-- The lines of target 0 that the bytes at some homes lie in are reached. -/
def reachHomes (hs : List Nat) (s : State) : State :=
  (((hs.filter (fun h => !hIsSpad h && hTarget h == 0)).map (· / 64)).eraseDups).foldl (fun s ln => reachLine ln [] s) s

/-! ## The L1 (R382, R383) -/

def l1Find (c : Core) (h : Nat) : Option L1Byte := tget c.l1 none h

/-- The one party that wrote all of some dirty bytes; 0, which is nobody, for bytes of several, since each conflicts with the
others' reservations (R303). -/
def oneWriter (ds : List (Nat × L1Byte)) : Nat :=
  let w := (ds.map (fun d => d.2.by_)).headD 0
  if ds.all (fun d => d.2.by_ == w) then w else 0

/-- Dirty bytes for which `p` holds are written back to their homes and stay clean (R382): the bytes of a line are one write,
which a poisoned block drops with one record, or which mends it when all 64 are dirty (R441, R442). -/
def writeBack (core : Nat) (p : Nat → L1Byte → Bool) (s : State) : State :=
  let ds := (s.core core).l1.filterMap (fun e => match e.2 with
    | some b => if b.dirty && p e.1 b then some (e.1, b) else none
    | none => none)
  let s := ((ds.map (fun d => d.1 / 64)).eraseDups).foldl (fun s ln =>
    let xs := ds.filter (fun d => d.1 / 64 == ln)
    homeLineWrite (oneWriter xs) (xs.map (fun d => (d.1, d.2.val))) (reachHomes [ln * 64] s)) s
  putCore core (fun c => { c with l1 := c.l1.map (fun e => match e.2 with
    | some b => (e.1, some (if b.dirty && p e.1 b then { b with dirty := false, others := [] } else b))
    | none => e) }) s

/-- A byte that a team has stored and that has not gone home, though another team of the core has stored it since. -/
def L1Byte.storedBy (b : L1Byte) (team : Nat) : Bool := b.dirty && (b.team == team || b.others.contains team)

/-- The lines dirty in a core for a team (R382). -/
def teamLines (s : State) (core team : Nat) : List Nat :=
  ((s.core core).l1.filterMap (fun e => match e.2 with
    | some b => if b.storedBy team then some (e.1 / 64) else none
    | none => none)).eraseDups

/-- A core's dirty lines of a team go home, whole: an aligned access elsewhere joins no bytes of two writes (R375, R382). -/
def writeBackTeam (core team : Nat) (s : State) : State :=
  let ls := teamLines s core team
  writeBack core (fun h _ => ls.contains (h / 64)) s

/-- Clean bytes for which `p` holds are dropped. -/
def dropClean (core : Nat) (p : Nat → L1Byte → Bool) (s : State) : State :=
  putCore core (fun c => { c with l1 := c.l1.filter (fun e => match e.2 with
    | some b => b.dirty || !p e.1 b
    | none => false) }) s

/-- The lines an L1 holds, ascending: its bytes stand in ascending order. -/
def l1Lines : Tbl (Option L1Byte) → List Nat
  | [] => []
  | [x] => [x.1 / 64]
  | x :: y :: r => if x.1 / 64 = y.1 / 64 then l1Lines (y :: r) else x.1 / 64 :: l1Lines (y :: r)

/-- How many lines an L1 holds: 128 KiB of them, and 32 KiB on a stack core (R1, R346). -/
def l1Size (core : Nat) : Nat := if isStack core then 512 else 2048

/-- An L1 that holds more lines than its size gives up the lowest ones, their dirty bytes written back. -/
def l1Trim (core : Nat) (s : State) : State :=
  let ls := l1Lines (s.core core).l1
  let out := ls.take (ls.length - l1Size core)
  if out.isEmpty then s
  else dropClean core (fun h _ => out.contains (h / 64)) (writeBack core (fun h _ => out.contains (h / 64)) s)

/-- The lines dirty in a core for a function. -/
def dirtyLines (s : State) (core f : Nat) : List Nat :=
  (((s.core core).l1.filterMap (fun e => match e.2 with
    | some b => if b.dirty && b.f == f then some (e.1 / 64) else none
    | none => none))).eraseDups

/-! ## Steps that can fail -/

/-- A step that answers a value or a failure, and the state either way: what a failing access has already done (a counted
correction, an entry of the poison table, a cached translation) stands. -/
abbrev Try (ε α : Type) := Except ε α × State

def Try.bind {ε α β : Type} (x : Try ε α) (f : α → State → Try ε β) : Try ε β :=
  match x with
  | (.ok a, s) => f a s
  | (.error c, s) => (.error c, s)

def Try.mapError {ε η α : Type} (x : Try ε α) (f : ε → η) : Try η α :=
  match x with
  | (.ok a, s) => (.ok a, s)
  | (.error c, s) => (.error (f c), s)

/-- A step for each element of a list, in order; the first failure ends it. -/
def tryEach {ε α β : Type} (f : α → State → Try ε β) : List α → State → Try ε (List β)
  | [], s => (.ok [], s)
  | a :: r, s => (f a s).bind (fun b s => (tryEach f r s).bind (fun bs s => (.ok (b :: bs), s)))

/-! ## Translation (R274 to R277) -/

/-- The eight bytes at an address, unless the check of its block found a cause. -/
def readAfter (h : Nat) : Option Nat × State → Try Nat Nat
  | (some c, s) => (.error c, s)
  | (none, s) => (.ok (leNat (readBytes s.mem h 8)), s)

/-- A table entry, read as the function's own data: SLICE_VIOLATION beyond the extent or the map, POISON or INTEGRITY from a
failing block. -/
def readEntry (f a : Nat) (s : State) : Try Nat Nat :=
  (stackHome s f a).elim (.error cSliceViolation, s) (fun h => readAfter h (checkBlock (hAddr h) 0 s))

/-- The level tables of R276: index, and the size that a leaf of the level maps. -/
def levelIndex (va : Nat) : Nat → Nat
  | 0 => bits va 55 41
  | 1 => bits va 40 31
  | 2 => bits va 30 21
  | _ => bits va 20 16
def leafSize (level : Nat) (big : Bool) : Nat :=
  match level with
  | 1 => 0x80000000
  | 2 => if big then 0x4000000 else 0x200000
  | _ => 0x10000
/-- The alignment of the table a non-leaf entry of the level names. -/
def tableAlign : Nat → Nat
  | 0 => 0x2000
  | 1 => 0x2000
  | _ => 0x100

def pteAddr (en : Nat) : Nat := bits en 55 16 * 0x100
def pteDev (en : Nat) : Nat := bits en 13 8
def pteTarget (en : Nat) : Nat := bits en 7 6

/-- The 64 MiB run of a BIG entry is 32 equal entries (R276). -/
def bigRun (f table idx en : Nat) (s : State) : Try Nat Bool :=
  (tryEach (fun k s => readEntry f (table + 8 * (idx / 32 * 32 + k)) s) (List.range 32) s).bind
    (fun xs s => (.ok (xs.all (· == en)), s))

/-- The format test of an entry at a level (R276, third row). -/
def pteBad (level en : Nat) : Bool :=
  let leaf := bit en 1
  let big := bit en 5
  bits en 63 56 != 0 || bits en 15 14 != 0 || (level == 0 && leaf) || (level == 3 && !leaf) ||
    (big && (level != 2 || !leaf)) || (leaf && pteAddr en % leafSize level big != 0) ||
    (!leaf && pteAddr en % tableAlign level != 0) || (pteDev en != 0 && pteTarget en != 3)

/-- The walk from a table at a level down: the leaf entry and its size. -/
def walkFrom : Nat → Nat → Nat → Nat → Nat → State → Try Nat (Nat × Nat)
  | 0, _, _, _, _, s => (.error cPteFormat, s)
  | fuel + 1, level, f, table, va, s =>
    let idx := levelIndex va level
    (readEntry f (table + 8 * idx) s).bind (fun en s =>
      if !bit en 0 then (.error cPageAbsent, s)
      else if pteBad level en then (.error cPteFormat, s)
      else if bit en 1 then
        (if bit en 5 then
          (bigRun f table idx en s).bind (fun ok s =>
            if ok then (.ok (en, leafSize level true), s) else (.error cPteFormat, s))
        else (.ok (en, leafSize level false), s))
      else walkFrom fuel (level + 1) f (pteAddr en) va s)

/-- The walk of a virtual address (R276), from TROOT. -/
def walk (f va : Nat) (s : State) : Try Nat (Nat × Nat) :=
  let root := s.fcsr64 f 0x040
  if !bit root 0 then (.error cPageAbsent, s)
  else
    let table := bits root 55 8 * 0x100
    if table % 0x40000 != 0 then
      (readEntry f (table + 8 * levelIndex va 0) s).bind (fun en s =>
        (.error (if bit en 0 then cPteFormat else cPageAbsent), s))
    else walkFrom 4 0 f table va s

/-- A cached translation (R277): the core's own TLB, then the one its cluster or stack shares. -/
def tlbFind (s : State) (core f va : Nat) : Option TlbEntry :=
  (((s.core core).tlb ++ tget s.l2tlb [] (clusterId core)).find? (fun t => t.f == f && t.va ≤ va && va < t.va + t.size))

/-- Entries of a core's TLB and of the one its cluster or stack shares (R1, R346). -/
def tlbSize (core : Nat) : Nat := if isStack core then 256 else 1024
def l2tlbSize (core : Nat) : Nat := if isStack core then 8192 else 32768

/-- A translation that no TLB of the core holds enters both; in a full one the oldest entry makes room. DESIGN CHOICE
(log 127). -/
def tlbFill (core : Nat) (t : TlbEntry) (s : State) : State :=
  if (tlbFind s core t.f t.va).isSome then s
  else
    let s := putCore core (fun c => { c with tlb := (t :: c.tlb).take (tlbSize core) }) s
    let shared := (t :: tget s.l2tlb [] (clusterId core)).take (l2tlbSize core)
    { s with l2tlb := tput s.l2tlb (clusterId core) shared }

/-- The leaf that maps a virtual address, by a cached translation or by a walk. With TROOT[0] clear every access is
PAGE_ABSENT, whatever is cached (R274). -/
def leafFor (core f va : Nat) (s : State) : Try Nat TlbEntry :=
  if !bit (s.fcsr64 f 0x040) 0 then (.error cPageAbsent, s)
  else match tlbFind s core f va with
  | some t => (.ok t, s)
  | none =>
    (walk f va s).bind (fun en s => (.ok { f := f, va := va / en.2 * en.2, size := en.2, entry := en.1 }, s))

/-- Whether the leaf's permissions refuse the access (R276, fourth row). -/
def permBad (acc : Acc) (en : Nat) : Bool :=
  let rd := bit en 2
  let w := bit en 3
  match acc with
  | .load => !rd
  | .ldfe => !rd
  | .code => !rd
  | .copyRead => !rd
  | .store => !w
  | .copyWrite => !w
  | .atomic => !w || pteTarget en == 2
  | .pref => !rd && !w

/-- The home of the byte at `va` under a leaf (R275, R276 fifth row, R285): a page of the device's own domain number is
performed locally, as target 0. -/
def leafHome (s : State) (f va : Nat) (t : TlbEntry) : Except Nat Nat :=
  let a := pteAddr t.entry + va % t.size
  let local0 : Except Nat Nat := match stackHome s f a with
    | some h => .ok h
    | none => .error cSliceViolation
  match pteTarget t.entry with
  | 0 => local0
  | 1 => (match sharedHome s f a with
    | some h => .ok h
    | none => .error cSliceViolation)
  | 2 => .ok (hMake 2 0 a)
  | _ => if pteDev t.entry == bits (tget s.csr 0 0x120).toNat 5 0 then local0 else .ok (hMake 3 (pteDev t.entry) a)

/-- The byte at `va` under a leaf, for an access: rows four and five of R276. -/
def leafPlace (s : State) (f va : Nat) (acc : Acc) (t : TlbEntry) : Except Nat Place :=
  if permBad acc t.entry then .error cProtection
  else match leafHome s f va t with
    | .error c => .error c
    | .ok h => .ok { h := h, tag := bit t.entry 4, va := va }

/-- Translate(va, access) (R276). A leaf that passes every row is cached; a failing one never is (R277). -/
def translate (core f va : Nat) (acc : Acc) (s : State) : Try Nat Place :=
  (leafFor core f va s).bind (fun t s => match leafPlace s f va acc t with
    | .error c => (.error c, s)
    | .ok p => (.ok p, tlbFill core t s))

/-- Translation of a list of virtual addresses; the first that fails gives the cause and its address. -/
def translateAll (core f : Nat) (acc : Acc) (vas : List Nat) (s : State) : Try (Nat × Nat) (List Place) :=
  tryEach (fun va s => (translate core f va acc s).mapError (fun c => (c, va))) vas s

/-! ## Range locks (R296) -/

/-- Whether a lock covers a byte; a global range wraps at 2^56. -/
def RangeLock.covers (k : RangeLock) (a : Nat) : Bool :=
  if k.global then (a + 2 ^ 56 - k.base) % 2 ^ 56 < k.len else k.base ≤ a && a < k.base + k.len

/-- Whether an access meets a lock that refuses it (R296). -/
def lockRefuses (acc : Acc) (dest : Bool) : Bool :=
  match acc with
  | .load => dest
  | .ldfe => false
  | .pref => false
  | _ => true

def lockHit (s : State) (core f : Nat) (acc : Acc) (p : Place) : Bool :=
  if hIsSpad p.h then
    (s.core (hSpadCore p.h)).locks.any (fun k => !k.global && k.covers (hSpadOff p.h) && lockRefuses acc k.dest)
  else (s.core core).locks.any (fun k => k.global && k.f == f && k.covers p.va && lockRefuses acc k.dest)

/-! ## Locating an access (R268 to R273, R290, R293) -/

/-- The address fault of an access: cause and reported address. -/
abbrev AddrFault := Nat × Nat

/-- The team that team index `x` of the issuing team's launch names in the cluster (R269): its lower core and slot. -/
def resolveTeam (s : State) (e : Env) (x : Nat) : Option (Nat × Nat) :=
  if x = e.team.idx then some (e.lower, e.slot)
  else (s.teams.find? (fun t => t.2.record == e.team.record && t.2.f == e.team.f && t.2.idx == x &&
      (t.2.status == .scalar || t.2.status == .running) && !t.2.endedProv &&
      !isStack (t.1 / 16) && t.1 / 16 / 128 == e.core / 128 && !isStack e.core)).map (fun t => (t.1 / 16, t.1 % 16))

/-- Extent of a team's scratchpad (R264). -/
def Team.extent (t : Team) : Nat := if t.pair then 2 * t.scratch else t.scratch

/-- The home of a scratchpad offset of a team (R269). -/
def spadHome (lower : Nat) (t : Team) (o : Nat) : Nat :=
  if o < t.scratch then hSpad lower (t.spad + o) else hSpad (lower + 1) (t.spad2 + (o - t.scratch))

/-- The formula of R270 on any offset: a frame's ADDR uses it past the aperture too (log 42). -/
def privAddr (pb thread : Nat) (o : Int) : Int := pb + 4 * (2048 * (o / 4) + thread) + o % 4

/-- The virtual addresses of the bytes of a private access (R270). -/
def privVas (t : Team) (thread o size : Nat) : List Nat :=
  (span o size).map (fun o => t.priv + 4 * (2048 * (o / 4) + thread) + o % 4)

/-- Locate up to translation (R268, R290): kind and extent, then alignment, by the instruction's rule `bad`. -/
def locate0 (s : State) (e : Env) (w : Window) (x d : Int) (size : Nat) (bad : Nat → Bool) (thread : Nat) :
    Except AddrFault Target :=
  let off := x + d
  let addr := (w.frame : Int) + off
  match w.kind with
  | .unset => .error (cWindowKind, 0)
  | .physical =>
    let pa := wrap 56 addr
    if agentRangeBad s pa size then .error (cProtection, pa)
    else if bad pa then .error (cMisaligned, pa) else .ok (.phys pa)
  | .global =>
    let va := wrap 56 addr
    if bad va then .error (cMisaligned, va)
    else .ok (.virt ((span va size).map (· % 2 ^ 56)))
  | .priv =>
    if addr < 0 || 0x10000 < addr + size then .error (cProtection, wrap 64 (privAddr e.team.priv thread addr))
    else if bad addr.toNat then .error (cMisaligned, (privVas e.team thread addr.toNat 1).headD 0)
    else .ok (.virt (privVas e.team thread addr.toNat size))
  | .spad =>
    if addr < 0 || (e.team.extent : Int) < addr + size then .error (cProtection, wrap 64 addr)
    else if bad addr.toNat then .error (cMisaligned, addr.toNat)
    else .ok (.homes ((span addr.toNat size).map (spadHome e.lower e.team)))
  | .cluster =>
    match resolveTeam s e w.team with
    | none => .error (cSpadAbsent, wrap 64 addr)
    | some (c, sl) =>
      let t := s.team c sl
      if !coreRuns s c then .error (cHeldUp, wrap 64 addr)
      else if addr < 0 || (t.extent : Int) < addr + size then .error (cProtection, wrap 64 addr)
      else if bad addr.toNat then .error (cMisaligned, addr.toNat)
      else .ok (.homes ((span addr.toNat size).map (spadHome c t)))

/-- The window offset of scratchpad bytes, for the range check of locks and the frame's ADDR. -/
def homePlaces (base : Int) (hs : List Nat) : List Place :=
  hs.zipIdx.map (fun p => { h := p.1, va := wrap 64 (base + p.2) })

/-- Bytes located and checked against range locks (R293 steps 5 to 8): places, or virtual addresses still to be translated. -/
def locate1 (s : State) (e : Env) (w : Window) (x d : Int) (size : Nat) (bad : Nat → Bool) (thread : Nat) (acc : Acc) :
    Except AddrFault (List Place ⊕ List Nat) :=
  match locate0 s e w x d size bad thread with
  | .error c => .error c
  | .ok (.homes hs) =>
    let ps := homePlaces ((w.frame : Int) + x + d) hs
    match ps.find? (lockHit s e.core e.team.f acc) with
    | some p => .error (cRangeLock, p.va)
    | none => .ok (.inl ps)
  | .ok (.phys pa) =>
    if acc == .atomic && hTarget pa == 2 then .error (cProtection, pa)
    else if (acc == .atomic || acc == .store) && hTarget pa == 0 && boundTo s (hAddr pa) != some (servedBy s e.core) then
      .error (cSliceViolation, pa)
    else if hTarget pa == 1 && t1Owner s (hAddr pa) != some (servedBy s e.core) then .error (cSliceViolation, pa)
    else .ok (.inl ((span pa size).map (fun h => ({ h := h, va := h } : Place))))
  | .ok (.virt vas) =>
    match vas.find? (fun va => (s.core e.core).locks.any (fun k =>
        k.global && k.f == e.team.f && k.covers va && lockRefuses acc k.dest)) with
    | some va => .error (cRangeLock, va)
    | none => .ok (.inr vas)

/-- Virtual addresses translated and checked against tags (R293 steps 9 and 10). -/
def locate2 (e : Env) (acc : Acc) (tagRule : Bool → Bool) (x : List Place ⊕ List Nat) (s : State) :
    Try AddrFault (List Place) :=
  match x with
  | .inl ps => (.ok ps, s)
  | .inr vas =>
    (translateAll e.core e.team.f acc vas s).bind (fun ps s =>
      match ps.find? (fun p => tagRule p.tag) with
      | some p => (.error (cProtection, p.va), s)
      | none => (.ok ps, s))

/-- A whole access: located, checked against range locks, translated, checked against tags (R293 steps 5 to 10). -/
def locate (e : Env) (w : Window) (x d : Int) (size : Nat) (bad : Nat → Bool) (thread : Nat) (acc : Acc)
    (tagRule : Bool → Bool) (s : State) : Try AddrFault (List Place) :=
  match locate1 s e w x d size bad thread acc with
  | .error c => (.error c, s)
  | .ok y => locate2 e acc tagRule y s

/-! ## Bytes -/

/-- The cores a team occupies: its Hamper is the entries of them all (R96). -/
def teamCores (lower : Nat) (t : Team) : List Nat := if t.pair then [lower, lower + 1] else [lower]

/-- The byte that the Hampers of some cores hold for a team. -/
def heldFor (s : State) (cores : List Nat) (key h : Nat) : Option Byte :=
  if hIsSpad h then none
  else cores.findSome? (fun c => (s.core c).hamper.findSome? (fun en =>
    if en.team == key && en.line == h / 64 then tget en.bytes none (h % 64) else none))

def hamperByte (s : State) (e : Env) (h : Nat) : Option Byte :=
  heldFor s (teamCores e.lower e.team) (teamKey e.lower e.slot) h

/-- Oxelo flits of an access, sent (0x08) and received (0x09), for the PF (R422): how many an access takes is open. -/
def countFlits (s : State) : State :=
  let (a, s) := s.drawWord
  let (b, s) := s.drawWord
  countEvent 0 0x09 b.toNat (countEvent 0 0x08 a.toNat s)

/-- Whether nothing of a function leaves the device for a place: over a link that is down, or in the name of a function in ERROR, whose
DMA is refused (R443, R444). -/
def outsideShut (f h : Nat) (s : State) : Bool :=
  (hTarget h == 3 && !tget s.linkUp false (hDev h)) || (s.func f).tdisp == .error

/-- What a remote device or the host answers to a load or an atomic of a function: the cause that refuses it, or free bytes (R286). A
link that is down cannot be reached, and carries nothing (R444). -/
def outsideRead (f h n : Nat) (s : State) : Try Nat (List Byte) :=
  if outsideShut f h s then (.error cRemoteFail, s)
  else
  let s := if hTarget h == 3 then countFlits s else s
  let (w, s) := s.drawWord
  if bits w.toNat 3 0 == 1 then (.error cRemoteFail, s)
  else if bits w.toNat 3 0 == 2 && hTarget h == 3 then (.error cPoison, s)
  else
    let (bs, s) := s.drawBytes n
    (.ok bs, s)

/-- Whether a byte is neither held by the team nor in its core's L1. -/
def l1Misses (s : State) (e : Env) (h : Nat) : Bool :=
  !hIsSpad h && (hamperByte s e h).isNone && (l1Find (s.core e.core) h).isNone

/-- A miss brings in the aligned eight bytes around it, at one moment and but for those that are dirty, so that no aligned
access of 4 or 8 bytes joins bytes of two writes (R375, R382). -/
def fillUnit (e : Env) (s : State) (u : Nat) : State :=
  putCore e.core (fun c => { c with l1 := (span (8 * u) 8).foldl (fun t h =>
    match tget t none h with
    | some { dirty := true, .. } => t
    | _ => tput t h (some { val := homeByte s h, f := e.team.f, team := teamKey e.lower e.slot })) c.l1 }) s

/-- Every byte that misses is brought in. -/
def fillMisses (e : Env) (ps : List Place) (s : State) : State :=
  let hs := (ps.map (·.h)).filter (l1Misses s e)
  ((hs.map (· / 8)).eraseDups).foldl (fillUnit e) (reachHomes hs s)

/-- One byte as a load of the team reads it: its Hamper, its core's L1, the home (R96, R382). -/
def loadByte (e : Env) (s : State) (p : Place) : Byte :=
  match hamperByte s e p.h with
  | some b => b
  | none =>
    match (if hIsSpad p.h then none else l1Find (s.core e.core) p.h) with
    | some b => b.val
    | none => homeByte s p.h

/-- Whether an agent reads a stack byte in plaintext (R429): the row block is bound to the function it serves,
whose keys have not been erased. -/
def agentReads (s : State) (core pa : Nat) : Bool :=
  boundTo s pa == some (servedBy s core) && (keySlot s (stackOf pa) (servedBy s core)).isSome

/-- An agent's load (R273, R429): a row block of another function, or of none, answers the ciphertext as it is stored, a failing
block of its own reads zero and sets APOISON, the host answers what it answers. -/
def agentLoad (core : Nat) (ps : List Place) (s : State) : Try Nat (List Byte) :=
  match ps with
  | [] => (.ok [], s)
  | p :: _ =>
    if hTarget p.h == 2 then outsideRead (servedBy s core) p.h ps.length s
    else if hTarget p.h == 1 then (.ok (ps.map (fun q => homeByte s q.h)), s)
    else if agentReads s core (hAddr p.h) then
      match checkHomes (ps.map (·.h)) (reachHomes (ps.map (·.h)) s) with
      | (none, s) => (.ok (ps.map (fun q => homeByte s q.h)), s)
      | (some x, s) =>
        if x = cHeldUp then (.error x, s)
        else (.ok (ps.map (fun _ => 0)), putCore core (fun c => { c with apoison := setBit c.apoison 0 true }) s)
    else if rowsHeld s (hAddr p.h) then (.error cHeldUp, s)
    else (.ok (ps.map (fun q => storedByte s (hAddr q.h))), s)

/-- The bytes of an access of one piece (R293 step 12). -/
def loadPiece (e : Env) (ps : List Place) (s : State) : Try Nat (List Byte) :=
  if e.isAgent then agentLoad e.core ps s
  else match ps with
    | [] => (.ok [], s)
    | p :: _ =>
      if !hIsSpad p.h && 2 ≤ hTarget p.h then
        (match ps.mapM (fun q => hamperByte s e q.h) with
        | some bs => (.ok bs, s)
        | none =>
          (outsideRead e.team.f p.h ps.length s).bind (fun bs s =>
            (.ok ((ps.zip bs).map (fun q => (hamperByte s e q.1.h).getD q.2)), s)))
      else match checkHomes ((ps.map (·.h)).filter (l1Misses s e)) s with
        | (some c, s) => (.error c, s)
        | (none, s) =>
          let s := fillMisses e ps s
          (.ok (ps.map (loadByte e s)), l1Trim e.core s)

/-- The words of a private access are separate locations (R270); any other access is one piece. -/
def chunks {α : Type} (n : Nat) : Nat → List α → List (List α)
  | 0, _ => []
  | fuel + 1, xs => if xs.length ≤ n then [xs] else xs.take n :: chunks n fuel (xs.drop n)
def pieces {α : Type} (w : Window) (xs : List α) : List (List α) := if w.kind = .priv then chunks 4 8 xs else [xs]

/-- A lane access by a team to a shared-memory line, for the line's owner (R422): a target-1 line, or one resident there. -/
def countShared (e : Env) (ps : List Place) (s : State) : State :=
  match ps with
  | [] => s
  | p :: _ =>
    let owner := if e.isAgent || hIsSpad p.h then none
      else if hTarget p.h = 1 then t1Owner s (hAddr p.h)
      else if hTarget p.h = 0 && (tget s.resident none (hAddr p.h / 64)).isSome then boundTo s (hAddr p.h)
      else none
    match owner with
    | some f => countEvent f 0x03 1 s
    | none => s

/-- The bytes of an access. -/
def loadPlaces (e : Env) (w : Window) (ps : List Place) (s : State) : Try Nat (List Byte) :=
  (tryEach (loadPiece e) (pieces w ps) s).bind (fun bs s => (.ok bs.flatten, countShared e ps s))

/-! ## Stores -/

/-- Who stores, for reservations (R303). -/
def Env.writer (e : Env) (lane : Nat) : Nat :=
  match e.ref with
  | .group c sl g => if lane = 64 then gangWriter (groupKey c sl g) e.gang.lanes else threadId (groupKey c sl g) lane
  | .scalar c sl => threadId (teamKey c sl * 128) 65
  | .agent c => threadId (teamKey c 0 * 128) 66

/-- The teams, but for the one that stores it now, whose bytes a stored byte overwrites before they have gone home. -/
def overwritten (team : Nat) : Option L1Byte → List Nat
  | some b => if b.dirty then (b.team :: b.others).filter (· != team) else []
  | none => []

/-- Bytes stored into the issuing core's L1, dirty (R382). -/
def l1Store (core f team writer : Nat) (cells : List (Nat × Byte)) (s : State) : State :=
  let put : Tbl (Option L1Byte) → Nat × Byte → Tbl (Option L1Byte) := fun t x =>
    tput t x.1 (some { val := x.2, dirty := true, f := f, team := team, others := (overwritten team (tget t none x.1)).eraseDups,
                       by_ := writer })
  l1Trim core (putCore core (fun c => { c with l1 := cells.foldl put c.l1 }) (reachHomes (cells.map (·.1)) s))

/-- The party to whom an outstanding store belongs: a team, or an agent. -/
def Env.party (e : Env) : Nat := if e.isAgent then 0x100000 + e.core else teamKey e.lower e.slot

/-- A store on its way outside to a home: whether the partner accepts it is open; over a link that is down it is lost (R286), and in the
name of a function in ERROR it is refused (R443). -/
def sendOutside (o : OutStore) (h : Nat) (s : State) : State :=
  if outsideShut o.f h s then State.due { s with outStores := s.outStores ++ [o] } [{ instr := .remoteStoreAck o.core false }]
  else
    let s := if o.host then s else countFlits s
    let (w, s) := s.drawWord
    State.due { s with outStores := s.outStores ++ [o] } [{ instr := .remoteStoreAck o.core (!bit w.toNat 0) }]

/-- A store to a remote device or to the host leaves the device; its answer comes later (R286, R386). -/
def outsideStore (e : Env) (page : Option TlbEntry) (h : Nat) (s : State) : State :=
  let f := if e.isAgent then servedBy s e.core else e.team.f
  let o : OutStore := { core := e.core, team := e.party, f := f, host := hTarget h == 2, pages := page.toList }
  sendOutside o h s

/-- Bytes of a store that is not held: scratchpad and shared homes at once, other lines through the L1. -/
def storeCells (e : Env) (lane : Nat) (page : Option TlbEntry) (cells : List (Nat × Byte)) (s : State) : State :=
  match cells with
  | [] => s
  | (h, _) :: _ =>
    if hIsSpad h then homeWrite (e.writer lane) cells s
    else if 2 ≤ hTarget h then outsideStore e page h s
    else if e.isAgent then homeWrite (e.writer lane) cells (reachHomes (cells.map (·.1)) s)
    else l1Store e.core e.team.f (teamKey e.lower e.slot) (e.writer lane) cells s

/-- How many Hamper entries a core has (R95). -/
def hamperSize (core : Nat) : Nat := if isStack core then 128 else 512

/-- The core whose Hamper holds an entry of the team for a line; each core of a pair merges into it (R95, R96). -/
def hamperHolder (s : State) (lower : Nat) (t : Team) (key line : Nat) : Option Nat :=
  (teamCores lower t).find? (fun c => (s.core c).hamper.any (fun x => x.team == key && x.line == line))

/-- Whether bytes of a line can be held for the team. -/
def hamperRoom (s : State) (e : Env) (line : Nat) : Bool :=
  (hamperHolder s e.lower e.team (teamKey e.lower e.slot) line).isSome || (s.core e.core).hamper.length < hamperSize e.core

/-- A held byte in its entry: its value, the core that stored it last, and the translation it used. -/
def HamperEntry.merge (x : HamperEntry) (off : Nat) (b : Byte) (up : Bool) (page : Option TlbEntry) : HamperEntry :=
  let rest := x.upper.filter (· != off)
  { x with bytes := tput x.bytes off (some b), upper := if up then rest ++ [off] else rest,
           pages := x.pages ++ page.toList.filter (!x.pages.contains ·) }

/-- A store held in the Hamper: merged into the team's entry for the line, or a new entry of the issuing core (R95). -/
def hamperPut (e : Env) (page : Option TlbEntry) (h : Nat) (b : Byte) (s : State) : State :=
  let key := teamKey e.lower e.slot
  let merge : HamperEntry → HamperEntry := fun x => x.merge (h % 64) b (e.core != e.lower) page
  match hamperHolder s e.lower e.team key (h / 64) with
  | some c => putCore c (fun x => { x with hamper := x.hamper.map (fun en =>
      if en.team == key && en.line == h / 64 then merge en else en) }) s
  | none => putCore e.core (fun c =>
      { c with hamper := c.hamper ++ [merge { team := key, f := e.team.f, provisional := e.team.prov, line := h / 64, bytes := [] }] }) s

/-- The bytes an entry holds. -/
def HamperEntry.cells (x : HamperEntry) : List (Nat × Byte) :=
  x.bytes.filterMap (fun b => b.2.map (fun v => (x.line * 64 + b.1, v)))

/-- A line leaves the L1s of some cores, its dirty bytes for their home. -/
def flushFrom (cores : List Nat) (line : Nat) (s : State) : State :=
  cores.foldl (fun s c => dropClean c (fun h _ => h / 64 == line) (writeBack c (fun h _ => h / 64 == line) s)) s

/-- An entry becomes dirty bytes of the L1 of the core that stored each (R97); a store that leaves the device goes out. On a pair the
line also goes home, as an eviction could send it, and no older copy stays on either core (log 138). -/
def commitEntry (lower key : Nat) (cores : List Nat) (c : Nat) (s : State) (x : HamperEntry) : State :=
  let h := x.line * 64
  let by_ : Bool → List (Nat × Byte) := fun up => x.cells.filter (fun b => x.upper.contains (b.1 % 64) == up)
  if 2 ≤ hTarget h then
    sendOutside { core := c, team := key, f := x.f, host := hTarget h == 2, pages := x.pages } h s
  else if cores.length = 1 then l1Store lower x.f key 0 x.cells s
  else flushFrom cores x.line
    (l1Store (lower + 1) x.f key 0 (by_ true) (l1Store lower x.f key 0 (by_ false) (flushFrom cores x.line s)))

/-- The entries of a team are committed (R97, R204). -/
def commitHamper (lower slot : Nat) (s : State) : State :=
  let key := teamKey lower slot
  let cores := teamCores lower (s.team lower slot)
  cores.foldl (fun s c =>
    let s := ((s.core c).hamper.filter (fun x => x.team == key)).foldl (commitEntry lower key cores c) s
    putCore c (fun co => { co with hamper := co.hamper.filter (fun x => x.team != key) }) s) s

/-- The entries of a team are discarded (R97, R283). -/
def dropHamper (lower slot : Nat) (s : State) : State :=
  (teamCores lower (s.team lower slot)).foldl (fun s c =>
    putCore c (fun co => { co with hamper := co.hamper.filter (fun x => x.team != teamKey lower slot) }) s) s

/-- An instruction that cannot be undone ends RESTART for the team (R284), also while a full Hamper has it run under STALL: its held
stores are committed and it runs under STALL until it ends. -/
def endRestart (e : Env) (s : State) : State :=
  if e.isAgent || e.team.runsStall && e.team.stall || e.team.prov || !e.team.idem then s
  else putTeam e (fun t => { t with stall := true }) (commitHamper e.lower e.slot s)

end Sys2Proof.Machine
end

