-- ==== Sys2Proof/Machine/Control.lean ====
section
/-! DEFINITION. Machine/Control.lean: the control instructions of chapter 10: NOP, YIELD, EXIT, BR, BRX, JMPF, JMPR, CALL, RET,
TOK, JOIN, LEAVE, BKPT, TRAP, the handler's return (R397), RCOMMIT, and MODE (R159). -/

namespace Sys2Proof.Machine

/-! ## Targets -/

/-- A sign-extended word offset times four (R141). -/
def pcOffset (pc : Word) (n imm : Nat) : Word := pc + BitVec.ofInt 32 (4 * signed n imm)

/-- CheckTarget(t) (R187). The agent slot has no logical slots, so only the form of R131 is tested there. -/
def checkTarget (e : Env) (t : Word) : Option Nat :=
  if 0x40000 ≤ t.toNat || t.toNat % 4 != 0 then some cSegAbsent
  else if e.isAgent then none
  else
    let l := tget e.team.slots {} (pcSlot t)
    match l.st with
    | .landed => none
    | .failed => some l.cause
    | _ => some cSegAbsent

/-- The next PC of a context without lanes. -/
def goto (e : Env) (pc : Word) (s : State) : Eff := .moved (putCtx e (fun c => { c with pc := pc }) s)

/-- Every lane of the gang takes the PC `f` gives it; the lanes whose guard is false go to PC + 4 and may run off the slot
(R134). -/
def sendAll (e : Env) (f : Nat → Word) (s : State) : State :=
  let ds := e.gangLanes.map (fun l => (l, some (f l)))
  crossCheck e (e.gangLanes.any (fun l => !e.laneGuard l)) (nextPc e 1) (sendLanes e ds s)

/-! ## Gangs and slots -/

/-- A new gang at a PC. -/
def addGang (g : Group) (pc : Word) (lanes : BitVec 64) (now : Nat) : Group :=
  { g with gangs := g.gangs ++ [{ id := g.nextGang, pc := pc, lanes := lanes, born := now }], nextGang := g.nextGang + 1 }

/-- The 16-lane blocks whose slots are separate: one for a Welell 3 group, four in a W16 team (R196). -/
def blocksOf (e : Env) : List (Nat × BitVec 64) :=
  if e.team.w16 then (List.range 4).map (fun b => (b, 0xFFFF#64 <<< (16 * b))) else [(0, ~~~0#64)]

def slotKey (block j : Nat) : Nat := block * 8 + j
def Group.slot (g : Group) (block j : Nat) : Option JoinSlot := tget g.joins none (slotKey block j)
def Group.setSlot (g : Group) (block j : Nat) (x : Option JoinSlot) : Group :=
  { g with joins := tput g.joins (slotKey block j) x }

/-- Whether a slot completes: set, and every lane of its mask parked at it or finished (R191). -/
def slotComplete (g : Group) (k : JoinSlot) : Bool := (k.mask &&& ~~~k.parked &&& ~~~g.finished) == 0

/-- A slot that completes becomes unset, and its parked lanes one gang at the join PC, which becomes current (R191). -/
def tryComplete (block j now : Nat) (g : Group) : Group :=
  match g.slot block j with
  | none => g
  | some k =>
    if slotComplete g k then
      let g' := g.setSlot block j none
      let lanes := k.parked &&& ~~~g.finished
      if lanes == 0 then g' else { addGang g' k.pc lanes now with current := g'.nextGang, streak := 0 }
    else g

/-- Every set slot, block by block, in ascending index. -/
def completeAll (now : Nat) (g : Group) : Group :=
  (List.range 32).foldl (fun g k => tryComplete (k / 8) (k % 8) now g) g

/-- Among gangs created by one instruction the one with the lowest PC is current (R183); DESIGN CHOICE (log 125): those after it rank
as gangs that began to wait together do, by their lowest lane (R176). -/
def rankNew (old : Nat) (g : Group) : Group :=
  match (g.gangs.filter (fun x => old ≤ x.id)).mergeSort (fun a b => decide (a.pc.toNat < b.pc.toNat) ||
      (a.pc == b.pc && (lanesOf a.lanes).headD 64 ≤ (lanesOf b.lanes).headD 64)) with
  | [] => g
  | x :: _ => { g with current := x.id, streak := 0 }

/-- Ends the current gang's streak (R176): the next choice is the gang that has waited longest. -/
def endStreak (g : Group) : Group := { g with streak := 32 }

/-- Lanes of a mask taken out of a gang; a gang left with none is gone. -/
def takeFromGang (id : Nat) (m : BitVec 64) (g : Group) : Group :=
  let left := g.gangs.map (fun x => if x.id == id then { x with lanes := x.lanes &&& ~~~m } else x)
  { g with gangs := left.filter (fun x => x.lanes != 0) }

/-! ## Barriers at a group's end (R380) -/

def teamGroups (s : State) (e : Env) : List (Nat × Group) :=
  (List.range e.team.ngrp).map (fun i => (i, s.group e.lower e.slot i))

/-- Completes the phase of barrier `b` when every group with an unfinished thread has arrived (R380). -/
def completePhase (e : Env) (b : Nat) (s : State) : State :=
  let gs := (teamGroups s e).filter (fun g => g.2.live != 0)
  let ph := tget (s.team e.lower e.slot).phase 0 b
  if gs.all (fun g => tget g.2.arrived none b == some ph) && !(teamGroups s e).all (fun g => tget g.2.arrived none b != some ph)
  then putTeam e (fun t => { t with phase := tput t.phase b (ph + 1) }) s
  else s

def completePhases (e : Env) (s : State) : State := (List.range 8).foldl (fun s b => completePhase e b s) s

/-! ## The end of a team -/

/-- A team with no unfinished thread ends (R201, R451). -/
def endIfFinished (e : Env) (s : State) : State :=
  if (teamGroups s e).all (fun g => g.2.live == 0) then
    (putTeam e (fun t => { t with status := .ending, endKind := .exit, exitGroup := some e.gi, exitPc := e.gang.pc,
                                  exitLanes := e.gang.lanes }) s).due [{ instr := .teamEnd e.lower e.slot }]
  else s

/-! ## Meanings -/

def gSys (minor : Nat) (agent : AgentRule) (scalarOk : Bool) (named : List Nat := []) : Gate :=
  { major := 0x00, minor := minor, agent := agent, scalarOk := scalarOk, named := named }

/-- NOP (R202). -/
def execNop (s : State) : Host.Outcome State Fault Refusal := run (gSys 0 .yes true) (fun _ s => .done 1 s) s

/-- YIELD (R202): ends the streak; nothing in the agent slot. -/
def execYield (s : State) : Host.Outcome State Fault Refusal :=
  run (gSys 2 .yes true) (fun e s => .done 1 (if e.isGroup then putGroup e endStreak s else s)) s

/-- The return-stack entries without some lanes; an entry with an empty mask is gone (R198). -/
def stripRet (m : BitVec 64) (g : Group) : Group :=
  { g with ret := g.ret.map (fun q =>
      (q.1, (q.2.map (fun r => { r with lanes := r.lanes &&& ~~~m })).filter (fun r => r.lanes != 0))) }

/-- The active lanes finish, in the group (R201). -/
def finishLanes (e : Env) (now : Nat) (g : Group) : Group :=
  let m := maskOf e.active
  completeAll now (endStreak (takeFromGang e.gang.id m (stripRet m { g with finished := g.finished ||| m })))

/-- A group whose last thread finishes arrives at every barrier (R380): on a pair its core's dirty lines of the team go home
(R381). -/
def exitRelease (e : Env) (s : State) : State :=
  if e.team.pair then writeBackTeam e.core (teamKey e.lower e.slot) s else s

/-- Contexts have come free on a core: where a SETW or a resume waits there, AFREE is raised (R400), at which the agents try the
resume again (R416). -/
def ctxFreed (core : Nat) (s : State) : State :=
  match (s.core core).resumeWait with
  | m :: _ => (raiseEvent core 10 s).due [{ instr := .kick m.f 0 }]
  | [] =>
    if s.teams.any (fun t => t.2.setwWait.isSome && (teamCores (t.1 / 16) t.2).contains core) then raiseEvent core 10 s else s

/-- EXIT (R201, R116): the active lanes finish and the others go on. -/
def exitBody (e : Env) (s : State) : Eff :=
  if e.isScalar then
    (if e.ctxGuard then
      .moved ((putTeam e (fun t => { t with status := .ending, endKind := .exit, exitGroup := none, exitPc := e.gang.pc }) s).due
        [{ instr := .teamEnd e.lower e.slot }])
    else .done 1 s)
  else
    let rest := e.gang.lanes &&& ~~~maskOf e.active
    let s := putGroup e (fun g => { g with gangs := g.gangs.map (fun x =>
      if x.id == e.gang.id && rest != 0 then { x with pc := nextPc e 1 } else x) }) s
    let s := putGroup e (finishLanes e (s.time + 1)) s
    let s := if (s.group e.lower e.slot e.gi).live == 0 then ctxFreed e.core (exitRelease e s) else s
    .moved (crossCheck e (rest != 0) (nextPc e 1) (endIfFinished e (completePhases e s)))

def execExit (s : State) : Host.Outcome State Fault Refusal := run (gSys 1 .no true) exitBody s

/-- Whether a target lies in another slot than the issuer's PC (R134); the agent slot has no slots (log 33). -/
def leavesSlot (e : Env) (t : Word) : Bool := pcSlot t != pcSlot e.gang.pc && !e.isAgent

/-- BR (R188): the guard is the condition. -/
def brBody (i : BitVec 26) (e : Env) (s : State) : Eff :=
  let t := pcOffset e.gang.pc 26 i.toNat
  if leavesSlot e t then .trap cSegCross none 0 s
  else if e.isGroup then .moved (sendAll e (fun l => if e.laneGuard l then t else nextPc e 1) s)
  else if e.ctxGuard then goto e t s else .done 1 s

def execBr (i : BitVec 26) (s : State) : Host.Outcome State Fault Refusal :=
  run { major := 0x01, agent := .yes, scalarOk := true } (brBody i) s

/-- The target words of a BRX that lie in its slot (R134); the agent slot has no slots (log 33). -/
def brxPresent (e : Env) (ts : List Word) : List Word := if e.isAgent then ts else ts.take (1023 - pcWord e.gang.pc)

/-- The selectors used, in order. -/
def brxSels (b : BrxArgs) : List BrxSel := [b.s0, b.s1, b.s2, b.s3].take (b.n.toNat + 1)

/-- BRX (R189): each lane goes to the target of its lowest true selector, or falls through. -/
def brxBody (b : BrxArgs) (ts : List Word) (e : Env) (s : State) : Eff :=
  let tgts := ts.map (fun w => pcOffset e.gang.pc 26 w.toNat)
  let choose : (Nat → Bool) → Word := fun p =>
    let k := ((brxSels b).findIdx? (fun x => p x.p.toNat != x.neg)).getD (b.n.toNat + 1)
    tgts.getD k 0
  if (brxPresent e ts).any (fun w => fM w != 8) then .trap cReserved none 0 s
  else if ts.length != (brxPresent e ts).length || tgts.any (leavesSlot e) then
    .trap cSegCross none 0 s
  else if e.isGroup then
    .moved (sendLanes e (e.gangLanes.map (fun l => (l, some (choose (fun p => e.group.readP p l))))) s)
  else goto e (choose e.ctx.readP) s

def execBrx (b : BrxArgs) (ts : List Word) (s : State) : Host.Outcome State Fault Refusal :=
  run { major := 0x02, agent := .yes, scalarOk := true } (brxBody b ts) s

/-- JMPF (R188). -/
def jmpfBody (i : BitVec 26) (e : Env) (s : State) : Eff :=
  let t := pcOffset e.gang.pc 26 i.toNat
  match checkTarget e t with
  | some c => .trap c none 0 s
  | none => if e.isGroup then .moved (sendLanes e (e.gangLanes.map (fun l => (l, some t))) s) else goto e t s

def execJmpf (i : BitVec 26) (s : State) : Host.Outcome State Fault Refusal :=
  run { major := 0x04, agent := .yes, scalarOk := true } (jmpfBody i) s

/-- JMPR (R190): each active lane to its own target. It waits for its register whatever its guard. -/
def jmprBody (r : SrcArgs) (e : Env) (s : State) : Eff :=
  let tgt : Nat → Word := fun l => e.group.readV r.a.toNat l
  needs e [srcV r.a.toNat r.qa] s (
    match e.active.find? (fun l => (checkTarget e (tgt l)).isSome) with
    | some l => .trap ((checkTarget e (tgt l)).getD 0) (some l) 0 s
    | none => .moved (sendAll e (fun l => if e.laneGuard l then tgt l else nextPc e 1) s))

def execJmpr (r : SrcArgs) (s : State) : Host.Outcome State Fault Refusal :=
  run (gSys 8 .no false [r.a.toNat]) (jmprBody r) s

/-- The stack of a quad of the group, topmost entry first. -/
def Group.stack (g : Group) (quad : Nat) : List RetEntry := tget g.ret [] quad

/-- CALL (R199). -/
def callBody (i : BitVec 26) (e : Env) (s : State) : Eff :=
  let t := pcOffset e.gang.pc 26 i.toNat
  let quads := (e.gangLanes.map (· / 4)).eraseDups
  if pcWord e.gang.pc = 1023 then .trap cSegCross none 0 s
  else match checkTarget e t with
    | some c => .trap c none 0 s
    | none =>
      if quads.any (fun q => 8 ≤ (e.group.stack q).length) then .trap cRetFull none 0 s
      else
        let s := putGroup e (fun g => { g with ret := quads.foldl (fun t q =>
          tput t q ({ pc := nextPc e 1, lanes := e.gang.lanes &&& (0xF#64 <<< (4 * q)) } :: tget t [] q)) g.ret }) s
        .moved (sendLanes e (e.gangLanes.map (fun l => (l, some t))) s)

def execCall (i : BitVec 26) (s : State) : Host.Outcome State Fault Refusal := run { major := 0x05 } (callBody i) s

/-- The topmost entry of a lane's quad that holds the lane (R200). -/
def retEntry (g : Group) (l : Nat) : Option RetEntry := (g.stack (l / 4)).find? (fun r => r.lanes.getLsbD l)

/-- A lane leaves the topmost entry that holds it. -/
def popLane (l : Nat) : List RetEntry → List RetEntry
  | [] => []
  | r :: rs => if r.lanes.getLsbD l then { r with lanes := r.lanes &&& ~~~(1#64 <<< l) } :: rs else r :: popLane l rs

def popLanes (ls : List Nat) (g : Group) : Group :=
  let t := ls.foldl (fun t l => tput t (l / 4) (popLane l (tget t [] (l / 4)))) g.ret
  { g with ret := t.map (fun q => (q.1, q.2.filter (fun r => r.lanes != 0))) }

/-- The cause of a lane that cannot return (R200). -/
def retCause (e : Env) (l : Nat) : Option Nat :=
  match retEntry e.group l with
  | none => some cRetEmpty
  | some r => checkTarget e r.pc

/-- RET (R200). -/
def retBody (e : Env) (s : State) : Eff :=
  match e.active.find? (fun l => (retCause e l).isSome) with
  | some l => .trap ((retCause e l).getD 0) (some l) 0 s
  | none =>
    let tgt : Nat → Word := fun l => ((retEntry e.group l).map (·.pc)).getD 0
    let s := putGroup e (popLanes e.active) s
    .moved (sendAll e (fun l => if e.laneGuard l then tgt l else nextPc e 1) s)

def execRet (s : State) : Host.Outcome State Fault Refusal := run (gSys 3 .no false) retBody s

/-- The blocks in which a set of lanes stands. -/
def blocksWith (e : Env) (m : BitVec 64) : List (Nat × BitVec 64) := (blocksOf e).filter (fun b => (b.2 &&& m) != 0)

/-- TOK (R192, R196). -/
def tokBody (j : BitVec 3) (i : BitVec 14) (e : Env) (s : State) : Eff :=
  let t := pcOffset e.gang.pc 14 i.toNat
  let bs := blocksWith e e.gang.lanes
  if pcSlot t != pcSlot e.gang.pc then .trap cSegCross none 0 s
  else if bs.any (fun b => match e.group.slot b.1 j.toNat with
      | some k => (k.mask &&& ~~~e.group.finished &&& ~~~e.gang.lanes) != 0
      | none => false) then .trap cJoinBusy none 0 s
  else .done 1 (putGroup e (fun g =>
    bs.foldl (fun g b => g.setSlot b.1 j.toNat (some { pc := t, mask := e.gang.lanes &&& b.2 })) g) s)

def execTok (j : BitVec 3) (i : BitVec 14) (s : State) : Host.Outcome State Fault Refusal :=
  run { major := 0x03 } (tokBody j i) s

/-- Lanes of the issuing gang parked at slot `j` of their blocks, with the PC that parked them (R191). -/
def parkAt (e : Env) (j : Nat) (m : BitVec 64) (g : Group) : Group :=
  let g := { g with parkPc := (lanesOf m).foldl (fun t l => tput t l e.gang.pc) g.parkPc }
  (blocksWith e m).foldl (fun g b => match g.slot b.1 j with
    | some k => g.setSlot b.1 j (some { k with parked := k.parked ||| (m &&& b.2) })
    | none => g) g

/-- The cause of lanes that cannot park at a slot (R193, R194): it is unset in a block of the gang (R196), or its mask lacks one. -/
def parkCause (e : Env) (j : Nat) (m : BitVec 64) : Option Nat :=
  let bs := blocksWith e e.gang.lanes
  if bs.any (fun b => (e.group.slot b.1 j).isNone) then some cJoinUnset
  else if bs.any (fun b => match e.group.slot b.1 j with
      | some k => (m &&& b.2 &&& ~~~k.mask) != 0
      | none => true) then some cJoinMask
  else none

/-- JOIN (R193, R196). -/
def joinBody (a : BitVec 3) (e : Env) (s : State) : Eff :=
  match parkCause e a.toNat e.gang.lanes with
  | some c => .trap c none 0 s
  | none =>
    .moved (putGroup e (fun g =>
      let old := g.nextGang
      let g := endStreak (takeFromGang e.gang.id e.gang.lanes (parkAt e a.toNat e.gang.lanes g))
      rankNew old ((blocksWith e e.gang.lanes).foldl (fun g b => tryComplete b.1 a.toNat (s.time + 1) g) g)) s)

def execJoin (a : BitVec 3) (s : State) : Host.Outcome State Fault Refusal := run (gSys 4 .no false) (joinBody a) s

/-- Clears lanes from the masks of the set slots above `j` (R194). -/
def clearAbove (j : Nat) (m : BitVec 64) (g : Group) : Group :=
  { g with joins := g.joins.map (fun k =>
      (k.1, if j < k.1 % 8 then k.2.map (fun x => { x with mask := x.mask &&& ~~~m }) else k.2)) }

/-- The slots that a LEAVE tests, per block: those above `j` whose mask changed, ascending, then `j` (R194). -/
def leaveTests (j : Nat) (m : BitVec 64) (g : Group) (block : Nat) : List Nat :=
  ((List.range 8).filter (fun k => j < k && (match g.slot block k with
    | some x => (x.mask &&& m) != 0
    | none => false))) ++ [j]

/-- Lanes left behind by a LEAVE that also completed slots count as a gang of their own, like the merged ones (R194). -/
def renewGang (id now : Nat) (g : Group) : Group :=
  { g with gangs := g.gangs.map (fun x => if x.id == id then { x with id := g.nextGang, stamp := 0, born := now } else x),
           nextGang := g.nextGang + 1 }

/-- LEAVE (R194, R196): the active lanes leave every inner region and park; the others go on. -/
def leaveBody (a : BitVec 3) (e : Env) (s : State) : Eff :=
  let j := a.toNat
  let m := maskOf e.active
  let rest := e.gang.lanes &&& ~~~m
  match parkCause e j m with
  | some c => .trap c none 0 s
  | none =>
    let s := putGroup e (fun g =>
      let old := g.nextGang
      let tests := (blocksWith e m).flatMap (fun b => (leaveTests j m g b.1).map (fun k => (b.1, k)))
      let g := takeFromGang e.gang.id m (parkAt e j m (clearAbove j m g))
      let g := { g with gangs := g.gangs.map (fun x => if x.id == e.gang.id then { x with pc := nextPc e 1 } else x) }
      let g := if rest == 0 then endStreak g else g
      let g' := tests.foldl (fun g t => tryComplete t.1 t.2 (s.time + 1) g) g
      if g'.nextGang == old then g' else rankNew old (if rest == 0 then g' else renewGang e.gang.id (s.time + 1) g')) s
    .moved (crossCheck e (rest != 0) (nextPc e 1) s)

def execLeave (a : BitVec 3) (s : State) : Host.Outcome State Fault Refusal := run (gSys 5 .no false) (leaveBody a) s

/-- BKPT and TRAP raise their cause once, when some lane is active (R203, R184, R116). -/
def raiseBody (cause : Nat) (e : Env) (s : State) : Eff :=
  if (if e.isGroup then !e.active.isEmpty else e.ctxGuard) then .trap cause none 0 s else .done 1 s

def execBkpt (s : State) : Host.Outcome State Fault Refusal := run (gSys 6 .yes true) (raiseBody cBreakpoint) s

def execTrap (n : BitVec 4) (s : State) : Host.Outcome State Fault Refusal :=
  run { major := 0x0B, agent := .yes, scalarOk := true } (raiseBody (0x1F0 + n.toNat)) s

/-- The return from a user trap handler (R397): MR, s56 to s63 and the gangs are restored. DESIGN CHOICE (log 125): the return is no
resume of R176, so the streak and the stamps of the gangs stand. -/
def handlerReturnBody (e : Env) (s : State) : Eff :=
  if e.active.isEmpty then .done 1 s
  else needs e ((span 56 8).map dstS) s (
    let m := (e.group.handler.getD 0) &&& e.group.live
    let fr := (s.core e.core).frame e.group.ctxNo
    let s59 := e.ctx.readS 59
    if (m &&& ~~~e.gang.lanes) != 0 then .trap cHandlerSplit none 0 s
    else match mrCause s59.toNat with
      | some c => .trap c none 0 s
      | none =>
        let pc := e.ctx.readS 58
        let s := putCtx e (fun c =>
          let c := fr.hidden.zipIdx.foldl (fun c p => c.writeS (56 + p.2) p.1) c
          { c with mr := s59 }) s
        let s := setFrame e.core e.group.ctxNo {} s
        .moved (putGroup e (fun g => { g with handler := none, gangs := g.gangs.map (fun x =>
          if x.id == e.gang.id then { x with pc := pc, progress := {} } else x) }) s))

def execHandlerReturn (s : State) : Host.Outcome State Fault Refusal := run { major := 0x0B } handlerReturnBody s

/-- RCOMMIT (R204): commits what RESTART holds and starts a new region. -/
def rcommitBody (e : Env) (s : State) : Eff :=
  if e.team.prov then .wait s
  else if !e.team.idem || e.team.stall then .done 1 s
  else .done 1 (putTeam e (fun t => { t with hamperStall := false }) (commitHamper e.lower e.slot s))

def execRcommit (s : State) : Host.Outcome State Fault Refusal := run (gSys 7 .no false) rcommitBody s

/-- The new MR of a MODE (R159). -/
def modeNew (mr : Word) (d v : Nat) : Nat :=
  let m := mr.toNat
  match d with
  | 0 => m / 16 * 16 + v
  | 1 => m / 128 * 128 + v % 8 * 16 + m % 16
  | 2 => m / 512 * 512 + v % 4 * 128 + m % 128
  | 3 => m / 1024 * 1024 + v % 2 * 512 + m % 512
  | 4 => v / 8 % 2 * 8192 + v % 8 * 1024 + m % 1024
  | _ => v

/-- MODE (R159): BAD_MODE for TYPE 15 or RND 5 to 7, else MR changes. -/
def modeBody (d : BitVec 6) (i : BitVec 14) (e : Env) (s : State) : Eff :=
  let new := modeNew e.ctx.mr d.toNat i.toNat
  match mrCause new with
  | some c => .trap c none 0 s
  | none => .done 1 (putCtx e (fun c => { c with mr := word new }) s)

def execMode (d : BitVec 6) (i : BitVec 14) (s : State) : Host.Outcome State Fault Refusal :=
  run { major := 0x06, agent := .yes, scalarOk := true } (modeBody d i) s

/-! ## Words that trap at decode (R154, R163, R165) -/

/-- Majors that the map assigns (R161). -/
def majorAssigned (m : Nat) : Bool :=
  m ≤ 0x0B || (0x10 ≤ m && m ≤ 0x1D) || m = 0x20 || m = 0x21 || (0x24 ≤ m && m ≤ 0x2C) || (0x30 ≤ m && m ≤ 0x34) || m = 0x36 ||
    m = 0x38 || m = 0x39 || m = 0x3C

/-- A word of an unassigned major, or of an assigned major and an unassigned minor. -/
def unassignedBody (w : Word) (_ : Env) (s : State) : Eff :=
  .trap (if majorAssigned (fM w).toNat then cIllegalMinor else cIllegalMajor) none 0 s

/-- UNASSIGNED_ENCODING (R163). -/
def execUnassignedEncoding (w : Word) (s : State) : Host.Outcome State Fault Refusal :=
  run { major := (fM w).toNat, minor := 0x1F, agent := .yes, scalarOk := true } (unassignedBody w) s

/-- TGT (R154): a target word that something reaches as an instruction. -/
def execTgt (_w : Word) (s : State) : Host.Outcome State Fault Refusal :=
  run { major := 8, agent := .yes, scalarOk := true } (fun _ s => .trap cTgt none 0 s) s

end Sys2Proof.Machine
end

