-- ==== Sys2Proof/Machine/Sync.lean ====
section
/-! DEFINITION. Machine/Sync.lean: acquire and release (R382, R383, R386), FENCE (R378) and the barriers BAR, ARRIVE and WAITB
(R379 to R381). Scopes are 0 GROUP, 1 TEAM, 2 CLUSTER, 3 DEVICE, 4 DOMAIN, 5 SYSTEM. -/

namespace Sys2Proof.Machine

/-! ## Releaser records (R383) -/

/-- The lines recorded by one release are written back by the core that recorded them. -/
def pullOne (r : Releaser) (s : State) : State := writeBack r.core (fun h _ => r.lines.contains (h / 64)) s

/-- The recorded releasers of a line are pulled, and the records cleared. -/
def pullLine (s : State) (line : Nat) : State :=
  let s := (tget s.releasers [] line).foldl (fun s r => pullOne r s) s
  { s with releasers := tdel s.releasers line }

/-- A release write to a line at CLUSTER or DEVICE scope: the core is recorded with its dirty lines; a ninth record makes the
oldest write back at once. -/
def recordRelease (e : Env) (line : Nat) (s : State) : State :=
  let rs := tget s.releasers [] line ++ [{ core := e.core, f := e.team.f, lines := dirtyLines s e.core e.team.f }]
  if 8 < rs.length then
    let s := (rs.take 1).foldl (fun s r => pullOne r s) s
    { s with releasers := tput s.releasers line (rs.drop 1) }
  else { s with releasers := tput s.releasers line rs }

/-! ## Acquire and release -/

/-- The write-backs of a release (R382): the team's lines on a pair at TEAM scope, the function's at DOMAIN and SYSTEM. -/
def releaseLines (e : Env) (scope : Nat) (s : State) : State :=
  if e.isAgent || scope = 0 then s
  else if scope = 1 then
    (if e.team.pair then writeBackTeam e.core (teamKey e.lower e.slot) s else s)
  else if scope ≤ 3 then s
  else writeBack e.core (fun _ b => b.f == e.team.f) s

/-- Whether a release at a scope must still wait for acknowledgements (R386). -/
def releaseWaits (e : Env) (scope : Nat) (s : State) : Bool :=
  4 ≤ scope && s.outStores.any (fun o => o.core == e.core && o.team == e.party)

/-- The effect of an acquire (R382, R383): the records of the lines read are pulled, clean lines of the function are dropped.
An agent has no L1 of its own to drop. -/
def acquireLines (e : Env) (scope : Nat) (lines : List Nat) (s : State) : State :=
  if scope = 0 then s
  else if scope = 1 then
    (if !e.isAgent && e.team.pair then dropClean e.core (fun _ b => b.f == e.team.f) s else s)
  else
    let s := lines.foldl pullLine s
    if e.isAgent then s else dropClean e.core (fun _ b => b.f == e.team.f) s

/-- What an acquire FENCE leaves of the lines that ATOM reads have collected: one narrower than CLUSTER pulls nothing and
keeps them for a wider one (R371, R383). -/
def leaveCollected (scope : Nat) (c : Ctx) : Ctx := if scope < 2 then c else { c with collected := [] }

/-! ## FENCE -/

/-- FENCE (R378). -/
def fenceBody (scope sem : BitVec 6) (e : Env) (s : State) : Eff :=
  let sc := scope.toNat
  let rel := sem.getLsbD 1
  if rel && 2 ≤ sc && e.team.prov then .wait s
  else
    let s := if rel then releaseLines e sc (if 2 ≤ sc then endRestart e s else s) else s
    if rel && releaseWaits e sc s then .wait s
    else if rel && 4 ≤ sc && e.team.remoteFail then .trap cRemoteFail none 0 s
    else
      let s := if rel then putCtx e (fun c => { c with fenced := max c.fenced (sc + 1) }) s else s
      let s := if sem.getLsbD 0 then
          putCtx e (leaveCollected sc) (acquireLines e sc e.ctx.collected s)
        else s
      .done 1 s

def execFence (scope sem : BitVec 6) (s : State) : Host.Outcome State Fault Refusal :=
  run { major := 0x2A, minor := 0, agent := .yes, scalarOk := true } (fenceBody scope sem) s

/-! ## Barriers -/

/-- Whether the gang holds every unfinished thread of its group (R379). -/
def Env.wholeGroup (e : Env) : Bool := (e.group.live &&& ~~~e.gang.lanes) == 0

/-- The phase of a barrier (R380). -/
def phaseOf (e : Env) (b : Nat) (s : State) : Nat := tget (s.team e.lower e.slot).phase 0 b

/-- Whether the group has arrived in the current phase. -/
def hasArrived (e : Env) (b : Nat) (s : State) : Bool :=
  tget (s.group e.lower e.slot e.gi).arrived none b == some (phaseOf e b s)

/-- The arrival of ARRIVE and BAR: a release at TEAM scope, then the phase may complete. -/
def arriveAt (e : Env) (b : Nat) (s : State) : State :=
  let ph := phaseOf e b s
  let s := releaseLines e 1 s
  completePhase e b (putGroup e (fun g => { g with arrived := tput g.arrived b (some ph) }) s)

/-- ARRIVE (R380). -/
def arriveBody (a : BitVec 3) (e : Env) (s : State) : Eff :=
  if !e.wholeGroup then .trap cBarSplit none 0 s
  else if hasArrived e a.toNat s then .wait s
  else .done 1 (arriveAt e a.toNat s)

def gSync (minor : Nat) : Gate := { major := 0x2A, minor := minor }

def execArrive (a : BitVec 3) (s : State) : Host.Outcome State Fault Refusal := run (gSync 2) (arriveBody a) s

/-- The wait of WAITB and BAR for a phase after `ph`: an acquire at TEAM scope (R381). -/
def waitPhase (e : Env) (b ph : Nat) (s : State) : Eff :=
  if ph < phaseOf e b s then
    .done 1 (acquireLines e 1 [] (putGroup e (fun g => { g with arrived := tput g.arrived b none }) s))
  else .wait s

/-- WAITB (R380). -/
def waitbBody (a : BitVec 3) (e : Env) (s : State) : Eff :=
  match tget e.group.arrived none a.toNat with
  | none => .done 1 s
  | some ph => waitPhase e a.toNat ph s

def execWaitb (a : BitVec 3) (s : State) : Host.Outcome State Fault Refusal := run (gSync 3) (waitbBody a) s

/-- BAR (R380): ARRIVE, then WAITB. -/
def barBody (a : BitVec 3) (e : Env) (s : State) : Eff :=
  let b := a.toNat
  if e.gang.progress.started then waitPhase e b e.gang.progress.phase s
  else if !e.wholeGroup then .trap cBarSplit none 0 s
  else if hasArrived e b s then .wait s
  else
    let ph := phaseOf e b s
    waitPhase e b ph (putProgress e { started := true, phase := ph } (arriveAt e b s))

def execBar (a : BitVec 3) (s : State) : Host.Outcome State Fault Refusal := run (gSync 1) (barBody a) s

end Sys2Proof.Machine
end

