-- ==== Sys2Proof/Machine/Engine.lean ====
section
/-! DEFINITION. Machine/Engine.lean: what the copy engine, PREF and the copies into instruction memory share: engine accesses
page by page (R279, R315), fault records (R281) and engine fault records (R399), tokens (R316), and WIN with its Probe (R266,
R267). -/

namespace Sys2Proof.Machine

/-! ## What an agent reaches (R265, R429) -/

/-- Whether bytes of stack or shared memory are all a function's: every row of the stack, every way of shared memory (R429). -/
def agOwns (s : State) (f a n : Nat) : Bool :=
  let p := hAddr a
  if hTarget a = 0 then (span (p / 2048) ((p % 2048 + n + 2047) / 2048)).all (fun r => boundTo s (2048 * r) == some f)
  else if hTarget a = 1 then t1Owner s p == some f && t1Owner s (p + n - 1) == some f
  else true

/-- What an agent meets when it must use a structure it cannot reach: the cause that stops it (R265, R429). -/
def agCause (s : State) (f a n : Nat) : Option Nat :=
  if agentRangeBad s a n then some cProtection
  else if !agOwns s f a n then some cSliceViolation
  else none

/-- A trap of an agent outside an instruction of its slot: the agent stops (R398). -/
def agentTrap (core cause : Nat) (s : State) : State :=
  match mkEnv { s with who := some (.ctx (.agent core) 0) } with
  | some e => takeTrap e cause 0xFF 0 e.ctx.pc e.ctx.pc s
  | none => s

/-! ## Fault records (R281) -/

/-- An identical record: VA, LAUNCH, TEAM, KIND and POLICY are equal. -/
def FaultWait.same (a b : FaultWait) : Bool :=
  a.va == b.va && a.record == b.record && a.team == b.team && a.kind == b.kind && a.restart == b.restart

/-- The 32 bytes of a record. -/
def faultBytes (w : FaultWait) : List Byte :=
  leBytes 8 w.va ++ leBytes 8 w.record ++ leBytes 4 w.team ++ leBytes 1 w.kind ++
    leBytes 1 (if w.restart then 1 else 0) ++ leBytes 10 0

/-- A fault of a function: the agent writes its record unless an identical unresolved one stands in the ring (R281); an agent that
cannot reach the ring stops (R265). -/
def faultRecord (core f : Nat) (w : FaultWait) (s : State) : State :=
  let w := { w with va := w.va / 0x10000 * 0x10000, written := false }
  if (s.func f).waits.any (fun x => x.same w && x.written) then
    s.setFunc f { s.func f with waits := (s.func f).waits.map (fun x =>
      if x.same w then { x with accs := x.accs ++ w.accs.filter (!x.accs.contains ·) } else x) }
  else
    let tail := s.fcsr f 0x04D
    let full := ringFull s f 0x04C 0x04D 0x04E
    let s := match (if full then none else agCause s f (ringSlot s f 0x04A 0x04C 0x04D) 32) with
      | some c => agentTrap core c s
      | none => noteLost (ringStep f 0x04A 0x04C 0x04D 0x04E 0x04F 0 0x045 (faultBytes w) s)
    let now : FaultWait := { w with written := s.fcsr f 0x04D != tail }
    s.setFunc f { s.func f with waits := (s.func f).waits.filter (fun x => !x.same w) ++ [now] }

/-- The records of a team are resolved when it ends. -/
def resolveTeamFaults (f record team : Nat) (s : State) : State :=
  s.setFunc f { s.func f with waits := (s.func f).waits.filter (fun x => !(x.record == record && x.team == team)) }

/-- Whether the access of a record would translate now. -/
def FaultWait.translates (s : State) (f : Nat) (x : FaultWait) : Bool :=
  match (walk f x.va { s with domains := [] }).1 with
  | .error _ => false
  | .ok en => x.accs.any (fun a =>
      match leafPlace s f x.va a { f := f, va := x.va / en.2 * en.2, size := en.2, entry := en.1 } with
      | .ok _ => true
      | .error _ => false)

/-- A retry has been made (R281): of the records it stands for, those whose access translates are resolved. -/
def resolveRetried (f : Nat) (retried : FaultWait → Bool) (s : State) : State :=
  s.setFunc f { s.func f with waits := (s.func f).waits.filter (fun x => !(retried x && x.translates s f)) }

/-- A team that is restored or starts again retries its accesses. -/
def resolveTeamRetry (f record team : Nat) (s : State) : State :=
  resolveRetried f (fun x => x.record == record && x.team == team) s

/-! ## Engine operations -/

def opOf (s : State) (core id : Nat) : Option EngOp := tget (s.core core).ops none id
def setOp (core id : Nat) (o : Option EngOp) (s : State) : State :=
  putCore core (fun c => { c with ops := if o.isNone then tdel c.ops id else tput c.ops id o }) s

/-- The core on which a team's group stands in slot terms: frames and engine fault records name the slot there. -/
def tslotOn (core lower slot : Nat) (t : Team) : Nat := if core = lower then slot else t.upperSlot

/-- An engine operation that waits for a page (R282, R315, R399): the engine fault record, the ENGFAULT event, the fault
record of KIND 3; a team under RESTART is aborted, also one whose threads have all finished while its operations go on. -/
def engFault (core id va : Nat) (acc : Acc) (o : EngOp) (s : State) : State :=
  let t := s.team o.lower o.slot
  let ek := match o.kind with
    | .copy => 0
    | .pref => 1
    | .code => 2
  let live := t.status == .running || (t.status == .ending && t.endKind == .exit && !t.killed)
  let restart := !t.runsStall && live && o.kind != .code
  let s := setOp core id (some { o with stalledAt := some va }) s
  let rec_ : EngFault := { tslot := tslotOn core o.lower o.slot t, teamx := t.idx, va := va, record := t.record, kind := ek }
  let s := putCore core (fun c => { c with engfaults := c.engfaults ++ [rec_] }) s
  let s := faultRecord core o.f { va := va, record := t.record, team := t.idx, kind := 3, restart := restart, written := false,
                                  accs := [acc] }
    (raiseEvent core 8 s)
  let s := s.due [agentDue core (.ef0 core)]
  if restart then
    s.due [{ agentRtt o.lower o.lower o.f (6 + o.slot * 0x1000000 + 0x10000000) 0 .abort with req := some { f := o.f, args := [va] } }]
  else s

/-- A page as an engine operation uses it: the mapping it has used before, else the present one, kept to its end (R315). -/
def opLeaf (core : Nat) (o : EngOp) (va : Nat) (s : State) : Try Nat (TlbEntry × EngOp) :=
  match o.pages.find? (fun t => t.va ≤ va && va < t.va + t.size) with
  | some t => (.ok (t, o), s)
  | none => (leafFor core o.f va s).bind (fun t s => (.ok (t, { o with pages := o.pages ++ [t] }), s))

/-- The place of a global byte of an engine operation. Only a page it has not used before is cached: a shootdown may have
covered the others (R279). -/
def opPlace (core : Nat) (o : EngOp) (va : Nat) (acc : Acc) (s : State) : Try Nat (Place × EngOp) :=
  (opLeaf core o va s).bind (fun x s => match leafPlace s o.f va acc x.1 with
    | .error c => (.error c, s)
    | .ok p => (.ok (p, x.2), if x.2.pages.length = o.pages.length then s else tlbFill core x.1 s))

/-- Bytes read by an engine as a load of its group would read them (R137, R314): those that the team holds, and the others at
their homes. DEDUCED (log 38): R96 keeps held bytes from the engines of others. -/
def engineRead (o : EngOp) (hs : List Nat) (s : State) : Try Nat (List Byte) :=
  let h := hs.headD 0
  let held := heldFor s (teamCores o.lower (s.team o.lower o.slot)) (teamKey o.lower o.slot)
  if !hIsSpad h && 2 ≤ hTarget h then
    (outsideRead o.f h hs.length s).bind (fun bs s => (.ok ((hs.zip bs).map (fun x => (held x.1).getD x.2)), s))
  else match checkHomes (hs.filter (fun h => (held h).isNone)) (reachHomes hs s) with
    | (some c, s) => (.error c, s)
    | (none, s) => (.ok (hs.map (fun h => (held h).getD (homeByte s h))), s)

/-- Bytes written by an engine at their homes: scratchpad granules are set full by the caller; a refused remote or host write
is REMOTE_FAIL (R315). -/
def engineWrite (f : Nat) (cells : List (Nat × Byte)) (s : State) : Try Nat PUnit :=
  let h := (cells.headD (0, 0)).1
  if hIsSpad h then
    (.ok ⟨⟩, cells.foldl (fun s c =>
      putCore (hSpadCore c.1) (fun x => { x with spad := writeByte x.spad (hSpadOff c.1) c.2 }) (loseReservations 0 (c.1 / 64) s)) s)
  else if 2 ≤ hTarget h then
    let (w, s) := s.drawWord
    if outsideShut f h s || bit w.toNat 0 then (.error cRemoteFail, s) else (.ok ⟨⟩, s)
  else (.ok ⟨⟩, homeWrite 0 cells (reachHomes (cells.map (·.1)) s))

/-- The issuing core's dirty lines of the function go home, and its clean copies are dropped (R314, R384). -/
def engineFlush (core f : Nat) (s : State) : State :=
  dropClean core (fun _ b => b.f == f) (writeBack core (fun _ b => b.f == f) s)

/-- Sets granules of a core's scratchpad full. -/
def fillGranules (gs : List (Nat × Nat)) (s : State) : State :=
  gs.foldl (fun s g => putCore g.1 (fun c => { c with gfull := setFull g.2 c.gfull }) s) s

/-! ## Tokens (R316) -/

/-- A token's count changes. -/
def countToken (lower slot group token : Nat) (f : Nat → Nat) (s : State) : State :=
  let g := s.group lower slot group
  s.setGroup lower slot group { g with tokens := tput g.tokens token (f (tget g.tokens 0 token)) }

/-- A failure is recorded on a token unless one stands (R315). -/
def failToken (o : EngOp) (cause : Nat) (s : State) : State :=
  let g := s.group o.lower o.slot o.group
  if cause = 0 || tget g.tokenCauses 0 o.token != 0 then s
  else s.setGroup o.lower o.slot o.group { g with tokenCauses := tput g.tokenCauses o.token cause }

/-- Whether the issuing group is its team's producer (R17, R18). -/
def Env.isProducer (e : Env) : Bool := e.team.producer == some e.gi

/-- Unfinished engine operations of a team. -/
def teamOps (s : State) (lower slot : Nat) : List (Nat × Nat × EngOp) :=
  (teamCores lower (s.team lower slot)).flatMap (fun c => (s.core c).ops.filterMap (fun o => match o.2 with
    | some x => if x.lower == lower && x.slot == slot then some (c, o.1, x) else none
    | none => none))

/-! ## WIN (R266, R267) -/

/-- Probe: the frame's translation in the TLBs, without walking. -/
def probe (s : State) (core f : Nat) (w : Window) : Window :=
  match tlbFind s core f w.frame with
  | none => { w with limit := 0, pframe := 0 }
  | some t =>
    match leafHome s f w.frame t with
    | .ok h => { w with limit := t.va + t.size - w.frame, pframe := h, base := t.va }
    | .error _ => { w with limit := 0, pframe := 0 }

/-- Unfinished copies that name a team through a window: its own, or another team's through a cluster window (R318). -/
def copyNames (s : State) (lower slot : Nat) : Bool :=
  s.cores.any (fun c => c.2.ops.any (fun o => match o.2 with
    | some x => x.kind == .copy && (x.srcTeam == teamKey lower slot || x.dstTeam == teamKey lower slot)
    | none => false))

/-- WIN (R266). -/
def winBody (d : BitVec 4) (a : BitVec 6) (k : BitVec 2) (e : Env) (s : State) : Eff :=
  needs e [srcS a.toNat, srcS (a.toNat + 1)] s (
    let lo := (e.ctx.readS a.toNat).toNat
    let hi := (e.ctx.readS (a.toNat + 1)).toNat
    let set := fun (w : Window) => Eff.done 1 (putCtx e (fun c => c.setWindow d.toNat w) s)
    if e.isAgent then
      (if k != 0 then .trap cWindowKind none 0 s else set { kind := .physical, frame := lo + hi * 2 ^ 32 })
    else match k.toNat with
      | 0 => set (probe s e.core e.team.f { kind := .global, frame := lo + hi % 2 ^ 24 * 2 ^ 32 })
      | 1 =>
        if hi != 0 then .trap cReserved none 0 s
        else if e.team.extent ≤ lo then .trap cProtection none lo s
        else set { kind := .spad, frame := lo }
      | 2 =>
        if isStack e.core then .trap cWindowKind none 0 s
        else if 0x7FFFFFFF < hi then .trap cReserved none 0 s else set { kind := .cluster, team := hi, frame := lo }
      | _ =>
        if hi != 0 then .trap cReserved none 0 s
        else if 0x10000 ≤ lo then .trap cProtection none lo s
        else set { kind := .priv, frame := lo })

def execWin (d : BitVec 4) (a : BitVec 6) (k : BitVec 2) (s : State) : Host.Outcome State Fault Refusal :=
  run { major := 0x2B, agent := .yes, scalarOk := true } (winBody d a k) s

end Sys2Proof.Machine
end

