-- ==== Sys2Proof/Machine/Real.lean ====
section
/-! DEFINITION. Machine/Real.lean: exact values of the number formats (R205 to R209): signed dyadics with infinities and NaN,
and their exact sums, products, quotients and roots. A quotient, a root, an exponential or a logarithm that is no dyadic is
carried as a dyadic in the same gap between neighbours at a spacing far finer than any format's, which rounds alike. -/

namespace Sys2Proof.Machine

/-- An exact value: NaN (signalling or not), a signed infinity, or (-1)^neg · m · 2^e. -/
inductive Val where
  | nan (sig : Bool)
  | inf (neg : Bool)
  | fin (neg : Bool) (m : Nat) (e : Int)
  deriving DecidableEq, Repr

/-! ## Types (R205, R208) -/

def tF32 : Nat := 4
def tF64 : Nat := 5

/-- 64-bit types stand in register pairs (R206). -/
def wideType (t : Nat) : Bool := t == 2 || t == 3 || t == 5
def floatType (t : Nat) : Bool := 4 ≤ t && t ≤ 9
def zType (t : Nat) : Bool := t == 10 || t == 11 || t == 12
def intType (t : Nat) : Bool := t ≤ 3 || t == 13 || t == 14
def signedType (t : Nat) : Bool := t == 0 || t == 2 || t == 13 || t == 14

/-- Element width in bits; a Zalnen element stands in an element word (R241). -/
def elemWidth (t : Nat) : Nat :=
  if wideType t then 64 else if t = 6 || t = 7 || t = 14 then 16 else if t = 8 || t = 9 || t = 13 then 8 else 32

/-- Width of a unit: a register, or a pair for a 64-bit type. -/
def unitWidth (t : Nat) : Nat := if wideType t then 64 else 32
/-- Elements of a unit. -/
def perUnit (t : Nat) : Nat := unitWidth t / elemWidth t

/-- Fraction bits and bias of the float types. -/
def fracBits (t : Nat) : Nat :=
  match t with
  | 5 => 52
  | 6 => 10
  | 7 => 7
  | 8 => 3
  | 9 => 2
  | _ => 23
def expBits (t : Nat) : Nat :=
  match t with
  | 5 => 11
  | 6 => 5
  | 8 => 4
  | 9 => 5
  | _ => 8
def expBias (t : Nat) : Nat := 2 ^ (expBits t - 1) - 1
/-- E4M3 has no infinity. -/
def hasInf (t : Nat) : Bool := t != 8

/-- The exponent of the subnormal grid. -/
def gridExp (t : Nat) : Int := 1 - (expBias t : Int) - (fracBits t : Int)

/-- Bit patterns (R208, R209). -/
def infBits (t : Nat) (neg : Bool) : Nat :=
  (if neg then 2 ^ (expBits t + fracBits t) else 0) + (2 ^ expBits t - 1) * 2 ^ fracBits t
def nanBits (t : Nat) : Nat :=
  if t = 8 then 0x7F else (2 ^ expBits t - 1) * 2 ^ fracBits t + 2 ^ (fracBits t - 1)
def maxBits (t : Nat) (neg : Bool) : Nat :=
  (if neg then 2 ^ (expBits t + fracBits t) else 0) + (if t = 8 then 0x7E else (2 ^ expBits t - 1) * 2 ^ fracBits t - 1)
def zeroBits (t : Nat) (neg : Bool) : Nat := if neg then 2 ^ (expBits t + fracBits t) else 0

/-- The value of a float pattern; under `ftz` a subnormal is a zero of its sign (R210). -/
def floatVal (t : Nat) (ftz : Bool) (x : Nat) : Val :=
  let f := x % 2 ^ fracBits t
  let e := x / 2 ^ fracBits t % 2 ^ expBits t
  let neg := bit x (expBits t + fracBits t)
  if e = 0 then .fin neg (if ftz then 0 else f) (gridExp t)
  else if t = 8 then (if e = 15 && f = 7 then .nan false else .fin neg (2 ^ 3 + f) (gridExp t + e - 1))
  else if e = 2 ^ expBits t - 1 then
    (if f = 0 then .inf neg else .nan (fracBits t != 2 && !bit f (fracBits t - 1)))
  else .fin neg (2 ^ fracBits t + f) (gridExp t + e - 1)

/-- The value of an integer. -/
def intVal (x : Int) : Val := .fin (x < 0) x.natAbs 0

/-- The value of a pattern of an integer or float type. -/
def elemVal (t : Nat) (ftz : Bool) (x : Nat) : Val :=
  if floatType t then floatVal t ftz x
  else if signedType t then intVal (signed (elemWidth t) x) else .fin false (x % 2 ^ elemWidth t) 0

def Val.isNan : Val → Bool
  | .nan _ => true
  | _ => false
def Val.isSig : Val → Bool
  | .nan b => b
  | _ => false
def Val.isZero : Val → Bool
  | .fin _ m _ => m == 0
  | _ => false
def Val.neg : Val → Val
  | .nan b => .nan b
  | .inf n => .inf (!n)
  | .fin n m e => .fin (!n) m e
def Val.isNeg : Val → Bool
  | .nan _ => false
  | .inf n => n
  | .fin n _ _ => n

/-! ## Exact arithmetic -/

/-- The signed integer of a finite value on a grid at or below its own. -/
def onGrid (neg : Bool) (m : Nat) (e g : Int) : Int :=
  let x : Int := ((m <<< (e - g).toNat : Nat) : Int)
  if neg then -x else x

/-- A signed integer on a grid as a value; `zneg` is the sign of zero. -/
def ofGrid (zneg : Bool) (x g : Int) : Val := .fin (if x = 0 then zneg else x < 0) x.natAbs g

/-- Exact sum; none is an invalid operation (∞ − ∞). The sign of an exact zero follows IEEE 754-2019 (R209). -/
def Val.add (rdn : Bool) : Val → Val → Option Val
  | .nan a, _ => some (.nan a)
  | _, .nan b => some (.nan b)
  | .inf a, .inf b => if a = b then some (.inf a) else none
  | .inf a, _ => some (.inf a)
  | _, .inf b => some (.inf b)
  | .fin n m e, .fin n' m' e' =>
    let g := min e e'
    some (ofGrid (if m = 0 && m' = 0 && n = n' then n else rdn) (onGrid n m e g + onGrid n' m' e' g) g)

/-- Exact product; none is an invalid operation (0 · ∞). -/
def Val.mul : Val → Val → Option Val
  | .nan a, _ => some (.nan a)
  | _, .nan b => some (.nan b)
  | .inf a, .inf b => some (.inf (a != b))
  | .inf a, .fin n m _ => if m = 0 then none else some (.inf (a != n))
  | .fin n m _, .inf b => if m = 0 then none else some (.inf (n != b))
  | .fin n m e, .fin n' m' e' => some (.fin (n != n') (m * m') (e + e'))

/-- A value strictly between two neighbours of a fine grid is carried at a quarter of the gap above the lower. -/
def betweens (neg : Bool) (q : Nat) (rest : Bool) (e : Int) : Val := .fin neg (4 * q + (if rest then 1 else 0)) (e - 2)

/-- Quotient of nonzero finite values, to 128 bits and more. -/
def quotient (neg : Bool) (m : Nat) (e : Int) (m' : Nat) (e' : Int) : Val :=
  let k := 128 + m'.log2
  betweens neg ((m <<< k) / m') ((m <<< k) % m' != 0) (e - e' - k)

/-- Integer square root by digits: `k` binary digits from the top. -/
def isqrt : Nat → Nat → Nat → Nat
  | 0, _, r => r
  | k + 1, x, r => let r' := r + 2 ^ k; isqrt k x (if r' * r' ≤ x then r' else r)

/-- Square root of a positive finite value, to 128 bits and more. -/
def sqrtVal (m : Nat) (e : Int) : Val :=
  let (m, e) := if e % 2 = 0 then (m, e) else (2 * m, e - 1)
  let x := m <<< 256
  let r := isqrt (x.log2 / 2 + 1) x 0
  betweens false r (r * r != x) (e / 2 - 128)

/-- Comparison of two values that are no NaN: less than. −0 equals +0. -/
def Val.lt : Val → Val → Bool
  | .inf a, .inf b => a && !b
  | .inf a, .fin _ _ _ => a
  | .fin _ _ _, .inf b => !b
  | .fin n m e, .fin n' m' e' => let g := min e e'; onGrid n m e g < onGrid n' m' e' g
  | _, _ => false
def Val.eq : Val → Val → Bool
  | .nan _, _ => false
  | _, .nan _ => false
  | a, b => !a.lt b && !b.lt a

/-! ## Exponential and logarithm

Fixed-point series with 256 fraction bits, which settles every comparison that the bounds of R238 ask for. -/

def fixedOne : Nat := 2 ^ 256

/-- ln 2 as a sum of 1 / (k 2^k). -/
def ln2Fixed : Nat := (List.range 260).foldl (fun s k => s + fixedOne / ((k + 1) * 2 ^ (k + 1))) 0

/-- exp of a fixed-point number below 1, by its series. -/
def expFixed (y : Nat) : Nat :=
  ((List.range 64).foldl (fun p k => let t := p.2 * y / fixedOne / (k + 1); (p.1 + t, t)) (fixedOne, fixedOne)).1

/-- 2^a for a finite nonzero value of magnitude below 2^14. -/
def exp2Val (neg : Bool) (m : Nat) (e : Int) : Val :=
  let x : Int := if e < -256 then (if neg then -1 else 0) else onGrid neg m (e + 256) 0
  let n := x / (fixedOne : Int)
  let f := (x % (fixedOne : Int)).toNat
  if f = 0 && !(e < -256) then .fin false 1 n else betweens false (expFixed (f * ln2Fixed / fixedOne)) true (n - 256)

/-- log2 of a positive finite value: exact for a power of two. -/
def log2Val (m : Nat) (e : Int) : Val :=
  let k := m.log2
  if m = 2 ^ k then intVal (e + k)
  else
    let up := 3 * 2 ^ k < 2 * m
    let n : Int := e + k + (if up then 1 else 0)
    let one : Nat := 2 ^ (if up then k + 1 else k)
    let num : Int := (m : Int) - one
    let z : Int := num * (fixedOne : Int) / ((m : Int) + one)
    let z2 : Int := z * z / (fixedOne : Int)
    let s := ((List.range 90).foldl (fun (p : Int × Int) k =>
      (p.1 + p.2 / (2 * k + 1), p.2 * z2 / (fixedOne : Int))) (0, z)).1
    let r : Int := n * (fixedOne : Int) + 2 * s * (fixedOne : Int) / (ln2Fixed : Int)
    betweens (r < 0) r.natAbs true (-256)

end Sys2Proof.Machine
end

