-- ==== Sys2Proof/Machine/Flags.lean ====
section
/-! DEFINITION. Machine/Flags.lean: the sticky flags of EXC (R37) and every computation that sets them: the five rounding
modes (R212), RoundTo with its overflow policies (R211, R213), conversions between types (R214) and Zalnen groups (R217, R219,
R220). -/

namespace Sys2Proof.Machine

/-- Bits of EXC (R37). -/
def fNV : Nat := 1
def fOF : Nat := 2
def fUF : Nat := 4
def fNX : Nat := 8

/-- What an element or lane computes: a value with the flags it raises, or the cause it traps with. -/
abbrev Res (α : Type) := Except Nat (α × Nat)

/-- Flags added to a result. -/
def Res.flag {α : Type} (f : Nat) : Res α → Res α
  | .ok (x, g) => .ok (x, g ||| f)
  | .error c => .error c

/-- The rounding direction of m / 2^sh away from its truncation (R212): 0 RNE, 1 RTZ, 2 RDN, 3 RUP, 4 RNA. -/
def roundsUp (rnd : Nat) (neg : Bool) (q r half : Nat) : Bool :=
  match rnd with
  | 0 => half < r || (r == half && q % 2 == 1)
  | 1 => false
  | 2 => neg && r != 0
  | 3 => !neg && r != 0
  | _ => half ≤ r

/-- m / 2^sh rounded to an integer, and whether it is inexact. -/
def roundMag (rnd : Nat) (neg : Bool) (m sh : Nat) : Nat × Bool :=
  let sh := min sh (m.log2 + 3)
  if sh = 0 then (m, false)
  else
    let q := m >>> sh
    let r := m % 2 ^ sh
    (if roundsUp rnd neg q r (2 ^ (sh - 1)) then q + 1 else q, r != 0)

/-- RoundInt: the integer of a finite value, and whether it is inexact. -/
def roundInt (rnd : Nat) (neg : Bool) (m : Nat) (e : Int) : Int × Bool :=
  let (q, x) := if 0 ≤ e then (m <<< e.toNat, false) else roundMag rnd neg m (-e).toNat
  (if neg then -(q : Int) else q, x)

/-- The range of an integer type (R207). -/
def intMin (t : Nat) : Int := if signedType t then -(2 ^ (elemWidth t - 1) : Nat) else 0
def intMax (t : Nat) : Int := if signedType t then (2 ^ (elemWidth t - 1) : Nat) - 1 else (2 ^ elemWidth t : Nat) - 1

/-- Saturate(x, t) (R9). -/
def saturate (t : Nat) (x : Int) : Int := max (intMin t) (min (intMax t) x)

/-- Rounding parameters taken from MR at issue (R157): RND, OVF and FTZ. -/
structure Rounding where
  rnd : Nat
  ovf : Nat
  ftz : Bool
  deriving DecidableEq, Repr

def roundingOf (mr : Word) : Rounding := { rnd := mrRnd mr, ovf := mrOvf mr, ftz := mrFtz mr }

/-- OverflowResult (R213). -/
def overflowResult (k : Rounding) (t : Nat) (neg : Bool) : Res Nat :=
  match k.ovf with
  | 0 => .ok (maxBits t neg, fOF ||| fNX)
  | 1 => .ok (if hasInf t then infBits t neg else nanBits t, fOF ||| fNX)
  | 2 => .ok (nanBits t, fOF ||| fNX)
  | _ => .error cFpOverflow

/-- InfResult (R213). -/
def infResult (k : Rounding) (t : Nat) (neg : Bool) : Res Nat :=
  if hasInf t then .ok (infBits t neg, 0)
  else if k.ovf = 0 then .ok (maxBits t neg, fNX)
  else .ok (nanBits t, 0)

/-- A normal number's pattern from a significand of at most fracBits + 1 bits, or one carried to the next power of two. -/
def normalBits (t : Nat) (neg : Bool) (q : Nat) (e : Int) : Nat :=
  let top : Int := e + q.log2
  let frac := if q.log2 ≤ fracBits t then q <<< (fracBits t - q.log2) else q >>> (q.log2 - fracBits t)
  zeroBits t neg + (top + expBias t).toNat * 2 ^ fracBits t + (frac - 2 ^ fracBits t)

/-- Whether a rounded significand exceeds the largest finite value. -/
def exceedsMax (t : Nat) (q : Nat) (e : Int) : Bool :=
  let top : Int := e + q.log2
  if t = 8 then 8 < top || (top == 8 && 15 * 2 ^ (q.log2) ≤ q * 8) else (expBias t : Int) < top

/-- RoundTo for a finite nonzero value and a float type (R211). -/
def roundFloat (k : Rounding) (t : Nat) (neg : Bool) (m : Nat) (e : Int) : Res Nat :=
  let sh := m.log2 - fracBits t
  let (q, x) := roundMag k.rnd neg m sh
  let e' := e + sh
  if exceedsMax t q e' then overflowResult k t neg
  else if e' + q.log2 < 1 - (expBias t : Int) then
    if k.ftz then .ok (zeroBits t neg, fUF ||| fNX)
    else
      let (y, x) := if gridExp t ≤ e then (m <<< (e - gridExp t).toNat, false)
        else roundMag k.rnd neg m (gridExp t - e).toNat
      .ok (zeroBits t neg + y, if x then fUF ||| fNX else 0)
  else .ok (normalBits t neg q e', if x then fNX else 0)

/-- RoundTo(x, t) (R211): a pattern of the type and the flags. -/
def roundTo (k : Rounding) (t : Nat) (v : Val) : Res Nat :=
  if intType t then
    match v with
    | .nan _ => .ok (0, fNV)
    | .inf neg => if k.ovf = 3 then .error cFpOverflow
        else .ok (wrap (elemWidth t) (if neg then intMin t else intMax t), fNV)
    | .fin neg m e =>
      let (q, x) := roundInt k.rnd neg m e
      if q < intMin t || intMax t < q then
        (if k.ovf = 3 then .error cFpOverflow else .ok (wrap (elemWidth t) (saturate t q), fNV))
      else .ok (wrap (elemWidth t) q, if x then fNX else 0)
  else
    match v with
    | .nan _ => .ok (nanBits t, 0)
    | .inf neg => infResult k t neg
    | .fin neg m e => if m = 0 then .ok (zeroBits t neg, 0) else roundFloat k t neg m e

/-- A float operation's outcome: an invalid one sets NV and gives the default NaN, a signalling operand sets NV (R209). -/
def deliver (k : Rounding) (t : Nat) (ops : List Val) : Option Val → Res Nat
  | none => .ok (nanBits t, fNV)
  | some v => (roundTo k t v).flag (if ops.any Val.isSig then fNV else 0)

/-- A conversion (R214). -/
def convert (k : Rounding) (t : Nat) (v : Val) : Res Nat := (roundTo k t v).flag (if v.isSig then fNV else 0)

/-! ## Zalnen elements (R215 to R217, R241) -/

/-- Magnitude bits m of a Zalnen type, its group size S and groups per block NG (R215). -/
def zBits (t : Nat) : Nat := if t = 10 then 2 else if t = 11 then 4 else 7
def zGroupSize (t : Nat) : Nat := if t = 10 then 8 else if t = 11 then 12 else 18
def zGroups (t : Nat) : Nat := if t = 10 then 7 else if t = 11 then 5 else 3
/-- The FMT byte (R215). -/
def zFmt (t : Nat) : Nat := 0xA0 + zBits t

/-- The value of an element (R217). -/
def zVal (m bs ge : Nat) (mu : Bool) (el : Nat) : Val :=
  if bs = 0xFF || ge = 0xFF then .nan false
  else
    let mag := el % 2 ^ m
    if mag = 0 then .fin false 0 0
    else .fin (bit el m) mag ((ge : Int) - 127 - (if mu then 1 else 0) - m + bs - 127)

/-- The element word of R241 decoded: Z_FORMAT where a reserved bit or an element bit above m is set. -/
def zWordVal (t : Nat) (w : Nat) : Except Nat Val :=
  let m := zBits t
  if bits w 14 8 != 0 || bits w 7 0 / 2 ^ (m + 1) != 0 then .error cZFormat
  else .ok (zVal m (bits w 31 24) (bits w 23 16) (bit w 15) (bits w 7 0))

/-- Element i of a group of S bytes, as an element word under a block scale (R216, R241). -/
def zWord (t bs : Nat) (group : List Byte) (i : Nat) : Nat :=
  let m := zBits t
  let field := leNat (group.drop 2)
  let el := field / 2 ^ ((m + 1) * i) % 2 ^ (m + 1)
  bs * 0x1000000 + (group.getD 0 0).toNat * 0x10000 + (if (group.getD 1 0).getLsbD (i / 2) then 0x8000 else 0) + el

/-! ## Quantising (R219, R220) -/

/-- A quantised group: GE, MU and the sixteen elements. -/
structure ZGroup where
  ge : Nat
  mu : Nat
  els : List Nat
  deriving DecidableEq, Repr

/-- |x| < 2^k for a finite value. -/
def belowPow (v : Val) (k : Int) : Bool :=
  match v with
  | .fin _ m e => m = 0 || e + m.log2 < k
  | _ => false

/-- One element of a group: M and s, and whether it is inexact (R219). -/
def quantElem (k : Rounding) (m ge : Nat) (mu : Bool) (v : Val) : Nat × Bool :=
  match v with
  | .fin neg mm e =>
    let e' := e + (m + (if mu then 1 else 0) - ((ge : Int) - 127))
    let (q, x) := roundInt k.rnd neg mm e'
    let mag := min q.natAbs (2 ^ m - 1)
    (mag + (if mag != 0 && q < 0 then 2 ^ m else 0), x || mag != q.natAbs)
  | .inf neg => (2 ^ m - 1 + (if neg then 2 ^ m else 0), true)
  | .nan _ => (0, false)

/-- The procedure of R219 on sixteen values, under a block scale. -/
def quantise (k : Rounding) (t bs : Nat) (xs : List Val) : Res ZGroup :=
  let m := zBits t
  let zero : ZGroup := { ge := 0, mu := 0, els := List.replicate 16 0 }
  if xs.any Val.isNan then .ok ({ zero with ge := 0xFF }, if xs.any Val.isSig then fNV else 0)
  else
    let ys := xs.map (fun v => match v with
      | .fin n mm e => Val.fin n mm (e - ((bs : Int) - 127))
      | v => v)
    let infinite := ys.any (fun v => match v with
      | .inf _ => true
      | _ => false)
    let tops := ys.filterMap (fun v => match v with
      | .fin _ mm e => if mm = 0 then none else some (e + mm.log2)
      | _ => none)
    if !infinite && tops.isEmpty then .ok (zero, 0)
    else
      let e : Int := if infinite then 255 else (tops.foldl max (tops.headD 0)) + 128
      if 254 < e && k.ovf = 3 then .error cFpOverflow
      else if 254 < e && k.ovf != 0 then .ok ({ zero with ge := 0xFF }, fOF ||| fNX)
      else
        let ge := (max (min e 254) 0).toNat
        let mus := (List.range 8).map (fun p =>
          belowPow (ys.getD (2 * p) (.fin false 0 0)) ((ge : Int) - 128) &&
            belowPow (ys.getD (2 * p + 1) (.fin false 0 0)) ((ge : Int) - 128))
        let qs := ys.zipIdx.map (fun y => quantElem k m ge (mus.getD (y.2 / 2) false) y.1)
        let mu := (mus.zipIdx.filter (·.1)).foldl (fun s p => s + 2 ^ p.2) 0
        .ok ({ ge := ge, mu := mu, els := qs.map (·.1) },
          (if 254 < e then fOF ||| fNX else 0) ||| (if qs.any (·.2) then fNX else 0))

/-- Number of set bits. -/
def popcount (n x : Nat) : Nat := ((List.range n).filter (fun i => bit x i)).length

/-- The terms of row i of H16 · x (R220). -/
def hadamardRow (xs : List Val) (i : Nat) : List Val :=
  xs.zipIdx.map (fun x => if popcount 4 (i &&& x.2) % 2 = 1 then x.1.neg else x.1)

/-- The exact sum of the terms of a row; none where it holds ∞ − ∞, whatever else it holds and in whatever order. -/
def exactSum (xs : List Val) : Option Val :=
  if xs.contains (.inf false) && xs.contains (.inf true) then none
  else xs.foldl (fun (s : Option Val) x => s.bind (fun v => v.add false x)) (some (.fin false 0 0))

/-- H16 · x / 4, each element formed exactly (R220); none is ∞ − ∞. -/
def hadamard (xs : List Val) : List (Option Val) :=
  (List.range 16).map (fun i => (exactSum (hadamardRow xs i)).map
    (fun v => match v with
      | .fin n m e => .fin n m (e - 2)
      | v => v))

/-- Quantising with or without the transform (R242). -/
def quantiseH (k : Rounding) (t bs : Nat) (h : Bool) (xs : List Val) : Res ZGroup :=
  if !h then quantise k t bs xs
  else
    let ys := hadamard xs
    let nv := (if ys.any (·.isNone) then fNV else 0) ||| (if xs.any Val.isSig then fNV else 0)
    (quantise k t bs (ys.map (fun y => y.getD (.nan false)))).flag nv

end Sys2Proof.Machine
end

