-- ==== Sys2Proof/Machine/LoadStore.lean ====
section
/-! DEFINITION. Machine/LoadStore.lean: LD, ST, SLD and SST (R287 to R296), Zalnen group records (R294, R295), stores held in
the Hamper (R93, R95, R283, R284), and LDFE (R297, R298). -/

namespace Sys2Proof.Machine

/-! ## Sizes (R288) -/

def szBytes (sz : Nat) : Nat :=
  match sz with
  | 0 => 1
  | 1 => 1
  | 2 => 2
  | 3 => 2
  | 4 => 4
  | 5 => 8
  | _ => 16

/-- Registers moved: one, a pair or a quadruple. -/
def szRegs (sz : Nat) : Nat := if sz = 5 then 2 else if sz = 6 then 4 else 1

/-- The words a load writes, register D first. -/
def loadWords (sz : Nat) (bs : List Byte) : List Word :=
  match sz with
  | 1 => [BitVec.ofInt 32 (signed 8 (leNat bs))]
  | 3 => [BitVec.ofInt 32 (signed 16 (leNat bs))]
  | _ => (List.range (szRegs sz)).map (fun k => word (leNat ((bs.drop (4 * k)).take 4)))

/-- The bytes a store takes from its registers. -/
def storeBytes (sz : Nat) (ws : List Word) : List Byte := (ws.flatMap (fun w => leBytes 4 w.toNat)).take (szBytes sz)

/-- Misaligned by the access size (R290). -/
def sizeBad (n a : Nat) : Bool := a % n != 0

/-- A failing access: lane, cause, address. -/
abbrev LaneFault := Option Nat × Nat × Nat

/-- The end of an instruction whose access failed: its trap, or a wait where the access reaches something that has stopped (R470). -/
def laneTrap (x : LaneFault) (s : State) : Eff := if x.2.1 = cHeldUp then .wait s else .trap x.2.1 x.1 x.2.2 s

/-- The register addend of a lane (R148). -/
def addendV (e : Env) (a : BitVec 6) (l : Nat) : Int := if a.toNat = 63 then 0 else (e.group.readV a.toNat l).toNat
def addendS (e : Env) (a : BitVec 6) : Int := if a.toNat = 63 then 0 else (e.ctx.readS a.toNat).toNat
def addendOpnd (mk : Nat → Opnd) (a : BitVec 6) : List Opnd := if a.toNat = 63 then [] else [mk a.toNat]
def addendReg (a : BitVec 6) : List Nat := if a.toNat = 63 then [] else [a.toNat]

/-- The byte offset of a word (R288). -/
def memOffset (off : BitVec 7) (size : Nat) : Int := signed 7 off.toNat * size

/-! ## Loads -/

/-- One access of a lane: located, then its bytes. -/
def loadAccess (e : Env) (w : Window) (x d : Int) (sz : Nat) (lane : Option Nat) (s : State) : Try LaneFault (List Word) :=
  let n := szBytes sz
  ((locate e w x d n (sizeBad n) (e.thread (lane.getD 0)) .load (fun _ => false) s).mapError (fun c => (lane, c))).bind
    (fun ps s => ((loadPlaces e w ps s).mapError (fun c => (lane, c, (ps.head?.map (·.va)).getD 0))).bind
      (fun bs s => (.ok (loadWords sz bs), s)))

/-- Window kinds of an instruction's vector or scalar form (R290). -/
def kindsV : List WinKind := [.global, .spad, .cluster, .priv]
def kindsS : List WinKind := [.global, .spad, .cluster, .physical]
def kindsGroup : List WinKind := [.global, .spad, .cluster]
def kindsLdfe : List WinKind := [.spad, .cluster]

/-- The writes of a vector load: keys of the group's table of v registers. -/
def vKey (r l : Nat) : Nat := l * 64 + r
def loadWrites (d : Nat) (vals : List (Nat × List Word)) : List (Nat × Word) :=
  vals.flatMap (fun v => v.2.zipIdx.map (fun w => (vKey (d + w.2) v.1, w.1)))

/-- LD of sizes 0 to 6. -/
def ldPlain (r : MemArgs) (e : Env) (s : State) : Eff :=
  let sz := r.sz.toNat
  let regs := span r.d.toNat (szRegs sz)
  let w := e.ctx.window r.w.toNat
  needs e (addendOpnd srcV r.a ++ regs.map dstV) s
    (if !kindsV.contains w.kind then .trap cWindowKind none 0 s
    else match tryEach (fun l s => loadAccess e w (addendV e r.a l) (memOffset r.off (szBytes sz)) sz (some l) s) e.active s with
      | (.error c, s) => laneTrap c s
      | (.ok vals, s) => .done 1 (sendResult e.ref false regs (loadWrites r.d.toNat (e.active.zip vals)) s))

/-! ### Group records -/

/-- The 16-lane blocks that hold an active lane: their lowest active lane, and their active lanes. -/
def laneBlocks (e : Env) : List (Nat × List Nat) :=
  (List.range 4).filterMap (fun k =>
    let ls := e.active.filter (fun l => l / 16 == k)
    ls.head?.map (fun l => (l, ls)))

/-- Misaligned as a record address (R294). -/
def recordBad (t a : Nat) : Bool :=
  a % 64 < 2 || (a % 64 - 2) % zGroupSize t != 0 || zGroups t ≤ (a % 64 - 2) / zGroupSize t

/-- The record of a block: bytes 0 and 1 of its Zalnen block, then the group's bytes. -/
def locateRecord (e : Env) (w : Window) (x d : Int) (t lane : Nat) (acc : Acc) (s : State) :
    Try LaneFault (List Place × List Place) :=
  let at_ := fun (d : Int) n bad => locate1 s e w x d n bad (e.thread lane) acc
  let pages := fun y s => (locate2 e acc (fun tag => !tag) y s).mapError (fun c => ((some lane, c) : LaneFault))
  match at_ d (zGroupSize t) (recordBad t) with
  | .error c => (.error (some lane, c), s)
  | .ok g =>
    let a := match g with
      | .inl ps => (ps.head?.map (·.va)).getD 0
      | .inr vas => vas.headD 0
    match at_ (d - (a % 64 : Nat)) 2 (fun _ => false) with
    | .error c => (.error (some lane, c), s)
    | .ok h => (pages g s).bind (fun ps s => (pages h s).bind (fun hs s => (.ok (hs, ps), s)))

/-- The bytes of a record. Z_FORMAT comes before POISON and INTEGRITY (R293): the FMT byte of a failing block is compared as
it is stored. -/
def readRecord (e : Env) (w : Window) (t : Nat) (ps : List Place) (s : State) : Try Nat (List Byte) :=
  match loadPlaces e w ps s with
  | (.ok bs, s) => (.ok bs, s)
  | (.error c, s) =>
    let fmt := ((ps.head?.map (loadByte e s)).getD 0).toNat
    (.error (if (c = cPoison || c = cIntegrity) && ps.all (fun p => hIsSpad p.h || hTarget p.h < 2) && fmt != zFmt t then cZFormat
      else c), s)

/-- A block of a GROUP load: the element words of its active lanes (R294). -/
def loadRecord (e : Env) (w : Window) (r : MemArgs) (t : Nat) (b : Nat × List Nat) (s : State) :
    Try LaneFault (List (Nat × List Word)) :=
  (locateRecord e w (addendV e r.a b.1) (memOffset r.off (zGroupSize t)) t b.1 .load s).bind (fun ps s =>
    let va := (ps.2.head?.map (·.va)).getD 0
    ((readRecord e w t (ps.1 ++ ps.2) s).mapError (fun c => ((some b.1, c, va) : LaneFault))).bind (fun bs s =>
      if (bs.getD 0 0).toNat != zFmt t then (.error (some b.1, cZFormat, va), s)
      else (.ok (b.2.map (fun l => (l, [word (zWord t (bs.getD 1 0).toNat (bs.drop 2) (l % 16))]))), s)))

/-- LD of size GROUP. -/
def ldGroup (r : MemArgs) (e : Env) (s : State) : Eff :=
  let t := mrType e.ctx.mr
  let w := e.ctx.window r.w.toNat
  if !zType t then .trap cBadMode none 0 s
  else needs e (addendOpnd srcV r.a ++ [dstV r.d.toNat]) s
    (if !kindsGroup.contains w.kind then .trap cWindowKind none 0 s
    else match tryEach (loadRecord e w r t) (laneBlocks e) s with
      | (.error c, s) => laneTrap c s
      | (.ok vals, s) => .done 1 (sendResult e.ref false [r.d.toNat] (loadWrites r.d.toNat vals.flatten) s))

/-- The gate of a vector access. -/
def gMemV (major : Nat) (r : MemArgs) : Gate := gVec' major (span r.d.toNat (szRegs r.sz.toNat) ++ addendReg r.a)
where gVec' (major : Nat) (named : List Nat) : Gate := { major := major, named := named, quadCost := 1, wide := 2 }

/-- LD (R289). -/
def execLd (r : MemArgs) (s : State) : Host.Outcome State Fault Refusal :=
  run (gMemV 0x24 r) (vec (if r.sz = 7 then ldGroup r else ldPlain r)) s

/-- SLD (R289). -/
def sldBody (r : MemArgs) (e : Env) (s : State) : Eff :=
  let sz := r.sz.toNat
  let regs := span r.d.toNat (szRegs sz)
  let w := e.ctx.window r.w.toNat
  needs e (addendOpnd srcS r.a ++ regs.map dstS) s
    (if !kindsS.contains w.kind then .trap cWindowKind none 0 s
    else match loadAccess e w (addendS e r.a) (memOffset r.off (szBytes sz)) sz none s with
      | (.error c, s) => laneTrap c s
      | (.ok ws, s) => .done 1 (sendResult e.ref true regs (regs.zip ws) s))

def gMemS (major : Nat) : Gate := { major := major, agent := .yes, scalarOk := true }

def execSld (r : MemArgs) (s : State) : Host.Outcome State Fault Refusal := run (gMemS 0x26) (sldBody r) s

/-! ## Stores -/

/-- A store ready to be made: its lane, where its bytes go. -/
structure Pending where
  lane : Nat
  cells : List (Place × Byte)
  deriving DecidableEq, Repr

/-- Whether an access stands in the team's own chunk of the pool (R99): through a global window, and not to a remote page. -/
def inChunk (e : Env) (w : Window) (ps : List Place) : Bool :=
  match e.team.chunk with
  | none => false
  | some (base, len) => w.kind == .global && ps.all (fun p => base ≤ p.va && p.va < base + len && hTarget p.h != 3)

/-- Whether a store of a provisional team is held (R93). -/
def heldP (e : Env) (w : Window) (ps : List Place) : Bool :=
  (w.kind == .global || w.kind == .priv) && !inChunk e w ps

/-- Whether a provisional team's stores must stall (R93, R94): a scratchpad of another core, or too few Hamper entries.
DESIGN CHOICE (log 123): a partner is the other core of a pair team; a team of one core has none. -/
def storeStalls (e : Env) (w : Window) (xs : List Pending) (s : State) : Bool :=
  e.team.prov &&
    (xs.any (fun x => x.cells.any (fun c => hIsSpad c.1.h && !(teamCores e.lower e.team).contains (hSpadCore c.1.h))) ||
      (let held := (xs.filter (fun x => heldP e w (x.cells.map (·.1)))).flatMap (fun x => x.cells.map (fun c => c.1.h / 64))
       let fresh := held.eraseDups.filter (fun ln =>
         (hamperHolder s e.lower e.team (teamKey e.lower e.slot) ln).isNone)
       hamperSize e.core < (s.core e.core).hamper.length + fresh.length))

/-- A store of a team under RESTART (R283, R284): held; a full Hamper commits and runs under STALL; a store that leaves the
device ends RESTART. -/
def storeRestart (e : Env) (lane : Nat) (page : Option TlbEntry) (cells : List (Nat × Byte)) (s : State) : State :=
  match cells with
  | [] => s
  | (h, _) :: _ =>
    if 2 ≤ hTarget h then storeCells e lane page cells (endRestart e s)
    else if hamperRoom s e (h / 64) then cells.foldl (fun s c => hamperPut e page c.1 c.2 s) s
    else storeCells e lane page cells (putTeam e (fun t => { t with hamperStall := true }) (commitHamper e.lower e.slot s))

/-- The translation that a store through a translated window used (R279). -/
def storePage (e : Env) (w : Window) (s : State) (cs : List (Place × Byte)) : Option TlbEntry :=
  if w.kind == .global || w.kind == .priv then cs.head?.bind (fun c => (leafFor e.core e.team.f c.1.va s).1.toOption) else none

/-- Whether the bytes of a piece leave the device. -/
def outsideCells (cells : List (Nat × Byte)) : Bool := cells.any (fun c => !hIsSpad c.1 && 2 ≤ hTarget c.1)

/-- One piece of a store: where its team's state sends it. One that leaves the device ends RESTART, also for a team that its full
Hamper has run under STALL (R284). -/
def storePiece (e : Env) (w : Window) (lane : Nat) (s : State) (cs : List (Place × Byte)) : State :=
  let cells := cs.map (fun c => (c.1.h, c.2))
  let page := storePage e w s cs
  if e.isAgent || !(w.kind == .global || w.kind == .priv) then storeCells e lane page cells s
  else if e.team.prov then
    (if inChunk e w (cs.map (·.1)) then storeCells e lane page cells s
    else cells.foldl (fun s c => hamperPut e page c.1 c.2 s) s)
  else if (s.team e.lower e.slot).runsStall then storeCells e lane page cells (if outsideCells cells then endRestart e s else s)
  else storeRestart e lane page cells s

/-- The stores of an instruction, lanes ascending: the highest lane's byte stands (R289). -/
def performStores (e : Env) (w : Window) (xs : List Pending) (s : State) : State :=
  xs.foldl (fun s x => (pieces w x.cells).foldl (storePiece e w x.lane) (countShared e (x.cells.map (·.1)) s)) s

/-- A located store, or its failure; a scalar store is nobody's lane and goes under the group's own number (R303). -/
def storeAccess (e : Env) (w : Window) (x d : Int) (sz : Nat) (lane : Option Nat) (bs : List Byte) (s : State) :
    Try LaneFault Pending :=
  let n := szBytes sz
  ((locate e w x d n (sizeBad n) (e.thread (lane.getD 0)) .store (fun tag => tag) s).mapError (fun c => (lane, c))).bind
    (fun ps s => (.ok { lane := lane.getD 64, cells := ps.zip bs }, s))

/-- The stores of an instruction once every access is located: they stall, or they are made. -/
def finishStores (e : Env) (w : Window) (r : Try LaneFault (List Pending)) : Eff :=
  match r with
  | (.error c, s) => laneTrap c s
  | (.ok xs, s) => if storeStalls e w xs s then stallProv e s else .done 1 (performStores e w xs s)

/-- ST of sizes 0 to 6. -/
def stPlain (r : MemArgs) (e : Env) (s : State) : Eff :=
  let sz := r.sz.toNat
  let regs := span r.d.toNat (szRegs sz)
  let w := e.ctx.window r.w.toNat
  needs e (addendOpnd srcV r.a ++ regs.map (fun x => srcV x)) s
    (if !kindsV.contains w.kind then .trap cWindowKind none 0 s
    else finishStores e w (tryEach (fun l s =>
      storeAccess e w (addendV e r.a l) (memOffset r.off (szBytes sz)) sz (some l)
        (storeBytes sz (regs.map (fun x => e.group.readV x l))) s) e.active s))

/-- The lane of a block whose element word a Zalnen record cannot hold (R295). -/
def badWord (e : Env) (t d : Nat) (b : Nat × List Nat) : Option Nat :=
  b.2.find? (fun l => match zWordVal t (e.group.readV d l).toNat with
    | .error _ => true
    | .ok _ => false)

/-- The bytes of a record assembled from a block's lanes (R295): FMT and BS, then the group. -/
def recordBytes (e : Env) (t d : Nat) (b : Nat × List Nat) : List Byte :=
  let m := zBits t
  let wd : Nat → Nat := fun l => (e.group.readV d l).toNat
  let base := b.1 / 16 * 16
  let here : Nat → Bool := fun i => b.2.contains (base + i)
  let low := wd b.1
  let field := ((List.range 16).map (fun i =>
    if here i then wd (base + i) % 2 ^ (m + 1) * 2 ^ ((m + 1) * i) else 0)).sum
  let mu := ((List.range 8).map (fun p =>
    let l := if here (2 * p) then base + 2 * p else base + 2 * p + 1
    if (here (2 * p) || here (2 * p + 1)) && bit (wd l) 15 then 2 ^ p else 0)).sum
  [BitVec.ofNat 8 (zFmt t), BitVec.ofNat 8 (bits low 31 24), BitVec.ofNat 8 (bits low 23 16), BitVec.ofNat 8 mu] ++
    leBytes (zGroupSize t - 2) field

/-- A block of a GROUP store (R295). -/
def storeRecord (e : Env) (w : Window) (r : MemArgs) (t : Nat) (b : Nat × List Nat) (s : State) : Try LaneFault Pending :=
  (locateRecord e w (addendV e r.a b.1) (memOffset r.off (zGroupSize t)) t b.1 .store s).bind (fun ps s =>
    match badWord e t r.d.toNat b with
    | some l => (.error (some l, cZFormat, (ps.2.head?.map (·.va)).getD 0), s)
    | none => (.ok { lane := b.1, cells := (ps.1 ++ ps.2).zip (recordBytes e t r.d.toNat b) }, s))

/-- ST of size GROUP. -/
def stGroup (r : MemArgs) (e : Env) (s : State) : Eff :=
  let t := mrType e.ctx.mr
  let w := e.ctx.window r.w.toNat
  if !zType t then .trap cBadMode none 0 s
  else needs e (addendOpnd srcV r.a ++ [srcV r.d.toNat]) s
    (if !kindsGroup.contains w.kind then .trap cWindowKind none 0 s
    else finishStores e w (tryEach (storeRecord e w r t) (laneBlocks e) s))

/-- ST (R289). -/
def execSt (r : MemArgs) (s : State) : Host.Outcome State Fault Refusal :=
  run (gMemV 0x25 r) (vec (if r.sz = 7 then stGroup r else stPlain r)) s

/-- SST (R289). -/
def sstBody (r : MemArgs) (e : Env) (s : State) : Eff :=
  let sz := r.sz.toNat
  let regs := span r.d.toNat (szRegs sz)
  let w := e.ctx.window r.w.toNat
  needs e (addendOpnd srcS r.a ++ regs.map (fun x => srcS x)) s
    (if !kindsS.contains w.kind then .trap cWindowKind none 0 s
    else finishStores e w (tryEach (fun (_ : Nat) s =>
      storeAccess e w (addendS e r.a) (memOffset r.off (szBytes sz)) sz none
        (storeBytes sz (regs.map e.ctx.readS)) s) [0] s))

def execSst (r : MemArgs) (s : State) : Host.Outcome State Fault Refusal := run (gMemS 0x27) (sstBody r) s

/-! ## LDFE -/

/-- The granules of scratchpad bytes: core and granule number. -/
def granulesOf (hs : List Nat) : List (Nat × Nat) := (hs.map (fun h => (hSpadCore h, hSpadOff h / 16))).eraseDups

def granuleFull (s : State) (g : Nat × Nat) : Bool := (s.core g.1).gfull.contains g.2

/-- Sets granules empty (R297). -/
def emptyGranules (gs : List (Nat × Nat)) (s : State) : State :=
  gs.foldl (fun s g => putCore g.1 (fun c => { c with gfull := setEmpty g.2 c.gfull }) s) s

/-- One lane of LDFE located: FE_SPLIT where its scratchpad is another core's than the first lane's (R298). -/
def ldfeLocate (e : Env) (w : Window) (r : LdfeArgs) (sz : Nat) (l : Nat) (s : State) : Try LaneFault (List Place) :=
  let n := szBytes sz
  let x := addendV e r.a
  let d := memOffset r.off n
  let first := match locate0 s e w (x (e.active.headD 0)) d n (sizeBad n) 0 with
    | .ok (.homes hs) => hSpadCore (hs.headD 0)
    | _ => 0
  ((locate e w (x l) d n (sizeBad n) (e.thread l) .ldfe (fun _ => false) s).mapError (fun c => (some l, c))).bind
    (fun ps s => if ps.any (fun p => hSpadCore p.h != first) then (.error (some l, cFeSplit, (ps.head?.map (·.va)).getD 0), s)
      else (.ok ps, s))

/-- LDFE and LDFE_CLEAR (R298): it waits until every granule is full. -/
def ldfeBody (clear : Bool) (r : LdfeArgs) : Env → State → Eff := vec fun e s =>
  let sz := r.sz.toNat + 4
  let regs := span r.d.toNat (szRegs sz)
  let w := e.ctx.window r.w.toNat
  needs e (addendOpnd srcV r.a ++ regs.map dstV) s
    (if !kindsLdfe.contains w.kind then .trap cWindowKind none 0 s
    else match tryEach (ldfeLocate e w r sz) e.active s with
      | (.error c, s) => laneTrap c s
      | (.ok pss, s) =>
        let gs := granulesOf (pss.flatten.map (·.h))
        if !gs.all (granuleFull s) then .wait s
        else
          let vals := pss.map (fun ps => loadWords sz (ps.map (fun p => homeByte s p.h)))
          let s := if clear then emptyGranules gs s else s
          .done 1 (sendResult e.ref false regs (loadWrites r.d.toNat (e.active.zip vals)) s))

def gLdfe (r : LdfeArgs) : Gate :=
  { major := 0x28, named := span r.d.toNat (szRegs (r.sz.toNat + 4)) ++ addendReg r.a, quadCost := 1, wide := 2 }

def execLdfe (r : LdfeArgs) (s : State) : Host.Outcome State Fault Refusal := run (gLdfe r) (ldfeBody false r) s

def execLdfeClear (r : LdfeArgs) (s : State) : Host.Outcome State Fault Refusal := run (gLdfe r) (ldfeBody true r) s

/-! ## RESULT_WRITE -/

/-- The arrival of a result (R173): its registers are written, become full and are no longer pending. -/
def arriveResult (ref : CtxRef) (seq : Nat) (s : State) : State :=
  match (s.ctx ref).results.find? (fun r => r.seq == seq) with
  | none => s
  | some r =>
    let s := s.setCtx ref { s.ctx ref with results := (s.ctx ref).results.filter (fun x => x.seq != seq) }
    if r.scalar then s.setCtx ref (r.writes.foldl (fun c w => c.writeS w.1 w.2) (s.ctx ref))
    else match ref with
      | .group c sl g =>
        s.setGroup c sl g (r.writes.foldl (fun g w => g.writeV (w.1 % 64) (w.1 / 64) w.2) (s.group c sl g))
      | _ => s

/-- RESULT_WRITE (R173). -/
def execResultWrite (ref : CtxRef) (seq : Nat) (s : State) : Host.Outcome State Fault Refusal := event (arriveResult ref seq) s

end Sys2Proof.Machine
end

