-- ==== Sys2Proof/Machine/Copy.lean ====
section
/-! DEFINITION. Machine/Copy.lean: COPY with its descriptor, range locks, landing and completion (R307 to R321), PREF (R306)
and WAITC (R317). -/

namespace Sys2Proof.Machine

/-! ## The descriptor (R308, R309) -/

/-- Word k of a descriptor. -/
def dw (d : List Word) (k : Nat) : Nat := (d.getD k 0).toNat

def cpPitch (d : List Word) : Nat := bits (dw d 0) 31 16
def cpSide (d : List Word) : Bool := bit (dw d 0) 15
def cpNdim (d : List Word) : Nat := bits (dw d 0) 11 10
def cpDstw (d : List Word) : Nat := bits (dw d 0) 7 4
def cpSrcw (d : List Word) : Nat := bits (dw d 0) 3 0
def cpX0 (d : List Word) : Nat := bits (dw d 3) 15 0
/-- The field of dimension k as the word holds it. -/
def cpField (d : List Word) (k : Nat) : Nat :=
  match k with
  | 1 => bits (dw d 3) 31 16
  | 2 => bits (dw d 4) 15 0
  | _ => bits (dw d 4) 31 16
/-- The extent of dimension k: 1 where it is not used. -/
def cpX (d : List Word) (k : Nat) : Nat := if k ≤ cpNdim d then cpField d k else 1
def cpStr (d : List Word) (k : Nat) : Nat := dw d (4 + k)

/-- A reserved field, or a field of an unused dimension, is nonzero. -/
def cpReserved (d : List Word) : Bool :=
  bits (dw d 0) 14 12 != 0 || bits (dw d 0) 9 8 != 0 ||
    [1, 2, 3].any (fun k => cpNdim d < k && (cpField d k != 0 || cpStr d k != 0))

def cpEmpty (d : List Word) : Bool := cpX0 d = 0 || [1, 2, 3].any (fun k => cpX d k = 0)

/-- Bytes between rows of the packed side. -/
def cpP (d : List Word) : Nat := if cpPitch d = 0 then cpX0 d else cpPitch d
def cpRows (d : List Word) : Nat := cpX d 1 * cpX d 2 * cpX d 3

/-- Offset of the first byte of row r on a side, from the frame plus SOFF or DOFF. -/
def rowOffset (d : List Word) (strided : Bool) (r : Nat) : Nat :=
  let i1 := r % cpX d 1
  let i2 := r / cpX d 1 % cpX d 2
  let i3 := r / (cpX d 1 * cpX d 2)
  if strided then i1 * cpStr d 1 + i2 * cpStr d 2 + i3 * cpStr d 3 else cpP d * (i1 + cpX d 1 * (i2 + cpX d 2 * i3))

/-- Length of the range of a side. -/
def sideLen (d : List Word) (strided : Bool) : Nat :=
  if strided then cpX0 d + (cpX d 1 - 1) * cpStr d 1 + (cpX d 2 - 1) * cpStr d 2 + (cpX d 3 - 1) * cpStr d 3
  else cpX0 d + cpP d * (cpRows d - 1)

/-- Whether the source, or the destination, is the strided side. -/
def sideStrided (d : List Word) (dst : Bool) : Bool := cpSide d == dst
/-- First offset of a side from its window's frame. -/
def sideOff (d : List Word) (dst : Bool) : Nat := dw d (if dst then 2 else 1)

/-- The kinds COPY accepts (R310). -/
def copyKinds (a b : WinKind) : Bool :=
  let ok : WinKind → Bool := fun k => k == .global || k == .spad || k == .cluster
  ok a && ok b && !(a == .global && b == .global)

/-- The misalignment test of R311. -/
def cpMisaligned (d : List Word) (a b : Window) : Bool :=
  dw d 1 % 4 != 0 || dw d 2 % 4 != 0 || cpX0 d % 4 != 0 || cpPitch d % 4 != 0 ||
    [1, 2, 3].any (fun k => k ≤ cpNdim d && cpStr d k % 4 != 0) ||
    (a.kind == .global && a.frame % 4 != 0) || (b.kind == .global && b.frame % 4 != 0)

/-! ## Sides -/

/-- A side of a copy: its window, the team whose scratchpad it lies in, its first offset and its length. -/
structure Side where
  win : Window
  lower : Nat
  slot : Nat
  off : Nat
  len : Nat
  deriving DecidableEq, Repr

/-- A side, its cluster window resolved at issue (R269); none is SPAD_ABSENT. -/
def mkSide (s : State) (e : Env) (d : List Word) (w : Window) (dst : Bool) : Option Side :=
  let at_ := if w.kind = .cluster then resolveTeam s e w.team else some (e.lower, e.slot)
  at_.map (fun t => { win := w, lower := t.1, slot := t.2, off := w.frame + sideOff d dst, len := sideLen d (sideStrided d dst) })

def Side.spad (x : Side) : Bool := x.win.kind == .spad || x.win.kind == .cluster

/-- A scratchpad side that passes its extent. -/
def Side.bad (s : State) (x : Side) : Bool := x.spad && (s.team x.lower x.slot).extent < x.off + x.len

/-- The pieces of a scratchpad range on each core that holds it: core, offset in its scratchpad, length. -/
def spadPieces (lower : Nat) (t : Team) (off len : Nat) : List (Nat × Nat × Nat) :=
  let lo := if off < t.scratch then [(lower, t.spad + off, min len (t.scratch - off))] else []
  let hi := if t.pair && t.scratch < off + len then
      [(lower + 1, t.spad2 + (max off t.scratch - t.scratch), off + len - max off t.scratch)] else []
  lo ++ hi

/-- The range-lock entries of a side (R312): the table's core and the entry. -/
def sideLocks (s : State) (e : Env) (x : Side) (dst : Bool) (id : Nat) : List (Nat × RangeLock) :=
  if x.spad then
    let (o, n) := if dst then (x.off / 16 * 16, (x.off + x.len + 15) / 16 * 16 - x.off / 16 * 16) else (x.off, x.len)
    (spadPieces x.lower (s.team x.lower x.slot) o n).map (fun p =>
      (p.1, { global := false, f := e.team.f, base := p.2.1, len := p.2.2, dest := dst, op := id }))
  else (teamCores e.lower e.team).map (fun c =>
    (c, { global := true, f := e.team.f, base := x.off % 2 ^ 56, len := x.len, dest := dst, op := id }))

/-- Whether two entries of one table have a byte in common. -/
def locksMeet (a b : RangeLock) : Bool :=
  a.global == b.global && (!a.global || a.f == b.f) && (a.covers b.base || b.covers a.base)

/-- Whether a new entry is refused (R313). -/
def lockRefused (s : State) (x : Nat × RangeLock) : Bool :=
  (s.core x.1).locks.any (fun k => locksMeet k x.2 && (k.dest || x.2.dest))

/-- Whether every table has room for its new entries. -/
def locksFit (s : State) (xs : List (Nat × RangeLock)) : Bool :=
  xs.all (fun x => (s.core x.1).locks.length + (xs.filter (fun y => y.1 == x.1)).length ≤ 16)

def enterLocks (xs : List (Nat × RangeLock)) (s : State) : State :=
  xs.foldl (fun s x => putCore x.1 (fun c => { c with locks := c.locks ++ [x.2] }) s) s

/-- Every entry of an operation is released (R312). -/
def releaseLocks (id : Nat) (s : State) : State :=
  { s with cores := s.cores.map (fun c => (c.1, { c.2 with locks := c.2.locks.filter (fun k => k.op != id) })) }

/-- The destination granules of a scratchpad range, widened outward. -/
def sideGranules (s : State) (x : Side) : List (Nat × Nat) :=
  if x.spad then
    (List.range ((x.off + x.len + 15) / 16 - x.off / 16)).map (fun i =>
      let h := spadHome x.lower (s.team x.lower x.slot) (16 * (x.off / 16 + i))
      (hSpadCore h, hSpadOff h / 16))
  else []

/-! ## COPY (R311) -/

/-- COPY once its descriptor and windows have passed the checks before MISALIGNED. -/
def copyStart (tok : Nat) (d : List Word) (a b : Side) (e : Env) (s : State) : Eff :=
  let id := s.seq
  let locks := sideLocks s e a false id ++ sideLocks s e b true id
  if cpMisaligned d a.win b.win then .trap cMisaligned none 0 s
  else if b.win.kind = .global && e.team.prov then .wait s
  else if !locksFit s locks || 255 ≤ tget e.group.tokens 0 tok then .wait s
  else if locks.any (lockRefused s) then .trap cRangeLock none 0 s
  else
    let s := if b.win.kind = .global && !e.team.runsStall then commitHamper e.lower e.slot s else s
    let s := countToken e.lower e.slot e.gi tok (· + 1) (enterLocks locks (engineFlush e.core e.team.f s))
    let s := emptyGranules (sideGranules s b) s
    let o : EngOp :=
      { kind := .copy, lower := e.lower, slot := e.slot, group := e.gi, f := e.team.f, token := tok, desc := d,
        src := a.win, dst := b.win, srcTeam := teamKey a.lower a.slot, dstTeam := teamKey b.lower b.slot }
    .done 1 (State.due { setOp e.core id (some o) s with seq := s.seq + 1 } [{ instr := .copyLanding e.core id }])

/-- COPY at issue (R311). -/
def copyBody (r : CopyArgs) : Env → State → Eff := engine fun e s =>
  let a := 8 * r.a8.toNat
  if !e.isProducer then .trap cCopyRights none 0 s
  else needs e ((span a 8).map (fun x => srcS x r.qa)) s (
    let d := (span a 8).map e.ctx.readS
    let sw := e.ctx.window (cpSrcw d)
    let dwn := e.ctx.window (cpDstw d)
    if cpReserved d then .trap cReserved none 0 s
    else if !copyKinds sw.kind dwn.kind then .trap cWindowKind none 0 s
    else if cpPitch d != 0 && cpPitch d < cpX0 d then .trap cCopyDesc none 0 s
    else if cpEmpty d then .done 1 s
    else match mkSide s e d sw false, mkSide s e d dwn true with
      | some x, some y =>
        if x.bad s || y.bad s then .trap cProtection none 0 s
        else if x.spad && y.spad && x.lower == y.lower && x.slot == y.slot && x.off < y.off + y.len && y.off < x.off + x.len then
          .trap cCopyDesc none 0 s
        else copyStart r.d.toNat d x y e s
      | _, _ => .trap cSpadAbsent none 0 s)

def execCopy (r : CopyArgs) (s : State) : Host.Outcome State Fault Refusal := run { major := 0x30 } (copyBody r) s

/-! ## Landing (R314, R315) -/

/-- The operation's destination as a side. -/
def opSide (o : EngOp) (dst : Bool) : Side :=
  let w := if dst then o.dst else o.src
  let k := if dst then o.dstTeam else o.srcTeam
  { win := w, lower := k / 16, slot := k % 16, off := w.frame + sideOff o.desc dst,
    len := sideLen o.desc (sideStrided o.desc dst) }

/-- Words of a row, and offsets of word number c of the box on a side. -/
def rowWords (d : List Word) : Nat := cpX0 d / 4
def wordOffset (o : EngOp) (dst : Bool) (c : Nat) : Nat :=
  (opSide o dst).off + rowOffset o.desc (sideStrided o.desc dst) (c / rowWords o.desc) + 4 * (c % rowWords o.desc)
def boxWords (d : List Word) : Nat := rowWords d * cpRows d

/-- The homes of the bytes of word c on a scratchpad side: where the frame is no multiple of 4, a word may lie on both cores of
a pair (R269, R311). -/
def opSpadWord (s : State) (o : EngOp) (dst : Bool) (c : Nat) : List Nat :=
  let x := opSide o dst
  (span (wordOffset o dst c) 4).map (spadHome x.lower (s.team x.lower x.slot))

/-- Where the bytes of word c stand on a side. -/
def wordHomes (core : Nat) (dst : Bool) (c : Nat) (o : EngOp) (s : State) : Try Nat (List Nat × EngOp) :=
  if (opSide o dst).spad then (.ok (opSpadWord s o dst c, o), s)
  else (opPlace core o (wordOffset o dst c % 2 ^ 56) (if dst then .copyWrite else .copyRead) s).bind (fun p s =>
    (.ok (span p.1.h 4, p.2), s))

/-- One word is read and lands; a word for stack or shared memory is answered as bytes still to be written, so that a row
writes a line as one write (R441). -/
def landWord (core c : Nat) (o : EngOp) (s : State) : Try Nat (EngOp × List (Nat × Byte)) :=
  (wordHomes core false c o s).bind (fun x s =>
    (wordHomes core true c x.2 s).bind (fun y s =>
      (engineRead o x.1 s).bind (fun bs s =>
        let h := y.1.headD 0
        if !hIsSpad h && hTarget h < 2 then (.ok ({ y.2 with pos := c + 1 }, y.1.zip bs), s)
        else (engineWrite o.f (y.1.zip bs) s).bind (fun _ s => (.ok ({ y.2 with pos := c + 1 }, []), s)))))

/-- The bytes of a row reach memory together (R305, R441). -/
def landCells (cells : List (Nat × Byte)) (s : State) : State := homeWrite 0 cells (reachHomes (cells.map (·.1)) s)

/-- Words of the present row land, until the row ends or one fails: the operation, and the cause. What has been read before
a failure lands. -/
def landWords (core : Nat) : Nat → EngOp → List (Nat × Byte) → State → EngOp × Option Nat × State
  | 0, o, cells, s => (o, none, landCells cells s)
  | n + 1, o, cells, s =>
    match landWord core o.pos o s with
    | (.error c, s) => (o, some c, landCells cells s)
    | (.ok x, s) =>
      if x.1.pos % rowWords o.desc = 0 then (x.1, none, landCells (cells ++ x.2) s) else landWords core n x.1 (cells ++ x.2) s

def landRow (core n : Nat) (o : EngOp) (s : State) : EngOp × Option Nat × State := landWords core n o [] s

/-- The granules that hold bytes of destination word c. -/
def wordGranules (s : State) (o : EngOp) (c : Nat) : List (Nat × Nat) := granulesOf (opSpadWord s o true c)

/-- Granules whose box bytes have all landed. -/
def doneGranules (s : State) (o : EngOp) : List (Nat × Nat) :=
  if (opSide o true).spad then
    let all := (List.range (boxWords o.desc)).map (wordGranules s o)
    let rest := (all.drop o.pos).flatten
    (all.take o.pos).flatten.eraseDups.filter (fun g => !rest.contains g)
  else []

/-- The granules of the destination that the copy has not yet set full (R314, R315). -/
def granulesLeft (s : State) (o : EngOp) : List (Nat × Nat) :=
  let done := doneGranules s o
  (sideGranules s (opSide o true)).filter (fun g => !done.contains g)

/-- The address a side's word has in the virtual space, for the fault of an absent page, and the access that met it. -/
def faultAddr (s : State) (core : Nat) (o : EngOp) : Nat × Acc :=
  let src := wordOffset o false o.pos % 2 ^ 56
  let dst := wordOffset o true o.pos % 2 ^ 56
  if (opSide o false).spad then (dst, .copyWrite)
  else match (opPlace core o src .copyRead s).1 with
    | .ok _ => (dst, .copyWrite)
    | .error _ => (src, .copyRead)

/-- A copy finishes or stops (R314, R315): the granules it has not yet filled are full, its entries released, its token counted
down, a failure recorded. -/
def finishCopy (core id cause : Nat) (s : State) : State :=
  match opOf s core id with
  | none => s
  | some o =>
    let s := releaseLocks id (fillGranules (granulesLeft s o) s)
    failToken o cause (countToken o.lower o.slot o.group o.token (· - 1) (setOp core id none s))

/-- A fault waits for its page unless translation is switched off (R274, R315). -/
def waitsForPage (s : State) (f cause : Nat) : Bool := cause == cPageAbsent && bit (s.fcsr f 0x040).toNat 0

/-- An operation waits for its page unless its team is being aborted (R283), or has failed, which discards its retries (R393), or is
squashed under RESTART, where an absent page stops it at once (R315). -/
def opWaits (s : State) (o : EngOp) (cause : Nat) : Bool :=
  let t := s.team o.lower o.slot
  waitsForPage s o.f cause && !(t.killed && (t.endKind == .abort || t.endKind == .fail || !t.runsStall))

/-- What a stopped operation records on its token: nothing where it stopped at an absent page, since the token goes with the
team (R315). -/
def tokenCause (s : State) (o : EngOp) (cause : Nat) : Nat := if waitsForPage s o.f cause then 0 else cause

/-- COPY_LANDING (R314): one row of the box lands. -/
def landing (core id : Nat) (s : State) : State :=
  match opOf s core id with
  | none => s
  | some o =>
    let (o', bad, s) := landRow core (rowWords o.desc) { o with stalledAt := none } s
    let before := doneGranules s o
    let s := fillGranules ((doneGranules s o').filter (fun g => !before.contains g)) (setOp core id (some o') s)
    match bad with
    | some c =>
      if opWaits s o c then engFault core id (faultAddr s core o').1 (faultAddr s core o').2 o' s else finishCopy core id (tokenCause s o c) s
    | none => s.due [{ instr := if o'.pos < boxWords o.desc then .copyLanding core id else .copyCompletion core id }]

def execCopyLanding (core id : Nat) (s : State) : Host.Outcome State Fault Refusal := event (landing core id) s

/-- COPY_COMPLETION (R314). -/
def execCopyCompletion (core id : Nat) (s : State) : Host.Outcome State Fault Refusal := event (finishCopy core id 0) s

/-! ## PREF (R306) -/

/-- PREF at issue. -/
def prefBody (r : PrefArgs) : Env → State → Eff := engine fun e s =>
  let w := e.ctx.window r.w.toNat
  let tok := r.d.toNat
  if !e.isProducer then .trap cCopyRights none 0 s
  else if w.kind != .global then .trap cWindowKind none 0 s
  else needs e [srcS r.b.toNat r.qb] s (
    let b := (e.ctx.readS r.b.toNat).toNat
    let n := bits b 30 0
    if n = 0 then .done 1 s
    else if 255 ≤ tget e.group.tokens 0 tok then .wait s
    else
      let id := s.seq
      let o : EngOp :=
        { kind := .pref, lower := e.lower, slot := e.slot, group := e.gi, f := e.team.f, token := tok,
          va := w.frame, len := n, retain := bit b 31 }
      let s := setOp e.core id (some o) (countToken e.lower e.slot e.gi tok (· + 1) (engineFlush e.core e.team.f s))
      .done 1 (State.due { s with seq := s.seq + 1 } [{ instr := .prefCompletion e.core id }]))

def execPref (r : PrefArgs) (s : State) : Host.Outcome State Fault Refusal := run { major := 0x2C } (prefBody r) s

/-- Lines of a range of a virtual window. -/
def prefLines (o : EngOp) : Nat := (o.va + o.len - 1) / 64 - o.va / 64 + 1

/-- One line becomes resident, retained by the team where it asks and where not every way holds retained lines (R305,
R306). -/
def prefLine (core : Nat) (o : EngOp) (s : State) : Try Nat EngOp :=
  (opPlace core o ((o.va / 64 + o.pos) * 64 % 2 ^ 56) .pref s).bind (fun p s =>
    let h := p.1.h
    let t := s.team o.lower o.slot
    let mark := if o.retain && retainedBy s o.f < retainRoom s o.f then [({ f := t.f, record := t.record, idx := t.idx } : Mark)]
      else []
    let now : EngOp := { p.2 with pos := o.pos + 1 }
    if hTarget h != 0 then (.ok now, s)
    else match checkHomes [h] s with
      | (some c, s) => (.error c, s)
      | (none, s) => (.ok now, reachLine (hAddr h / 64) mark s))

/-- Lines in order, until all are resident or one fails. -/
def prefRun (core : Nat) : Nat → EngOp → State → EngOp × Option Nat × State
  | 0, o, s => (o, none, s)
  | n + 1, o, s =>
    match prefLine core o s with
    | (.error c, s) => (o, some c, s)
    | (.ok o', s) => prefRun core n o' s

/-- A PREF finishes, or stops with its cause on the token. -/
def finishPref (core id cause : Nat) (s : State) : State :=
  match opOf s core id with
  | none => s
  | some o => failToken o cause (countToken o.lower o.slot o.group o.token (· - 1) (setOp core id none s))

/-- PREF_COMPLETION (R306). -/
def prefDone (core id : Nat) (s : State) : State :=
  match opOf s core id with
  | none => s
  | some o =>
    let (o', bad, s) := prefRun core (prefLines o - o.pos) { o with stalledAt := none } s
    let s := setOp core id (some o') s
    match bad with
    | some c =>
      if opWaits s o c then engFault core id ((o'.va / 64 + o'.pos) * 64 % 2 ^ 56) .pref o' s
      else finishPref core id (tokenCause s o c) s
    | none => finishPref core id 0 s

def execPrefCompletion (core id : Nat) (s : State) : Host.Outcome State Fault Refusal := event (prefDone core id) s

/-! ## WAITC (R317) -/

/-- WAITC: the lowest failed token of the mask is reported and cleared; the return is an acquire of what landed. -/
def waitcBody (m : BitVec 8) (e : Env) (s : State) : Eff :=
  let toks := (List.range 8).filter (fun k => m.getLsbD k)
  if !e.isProducer then .trap cCopyRights none 0 s
  else if toks.any (fun k => tget e.group.tokens 0 k != 0) then .wait s
  else match toks.find? (fun k => tget e.group.tokenCauses 0 k != 0) with
    | some k => .trap (tget e.group.tokenCauses 0 k) none 0 (putGroup e (fun g => { g with tokenCauses := tput g.tokenCauses k 0 }) s)
    | none => .done 1 (dropClean e.core (fun _ b => b.f == e.team.f) s)

def execWaitc (m : BitVec 8) (s : State) : Host.Outcome State Fault Refusal := run { major := 0x31 } (waitcBody m) s

end Sys2Proof.Machine
end

