-- ==== Sys2Proof/Machine/Overlay.lean ====
section
/-! DEFINITION. Machine/Overlay.lean: the instruction-memory overlay (R130 to R139): CFETCH, CLAND, the copies into instruction
memory and their landing. -/

namespace Sys2Proof.Machine

/-! ## Slots -/

/-- Physical slots of a core (R130, R346). -/
def physSlots (core : Nat) : Nat := if isStack core then 16 else 64

/-- The lowest free physical slot of a core. -/
def freePhys (s : State) (core : Nat) : Option Nat :=
  (List.range (physSlots core)).find? (fun p => tget (s.core core).imemOwner 0 p = 0)

/-- How many physical slots are free. -/
def freePhysCount (s : State) (core : Nat) : Nat :=
  ((List.range (physSlots core)).filter (fun p => tget (s.core core).imemOwner 0 p = 0)).length

/-- Reservations on a core, as slot, register KiB, scratchpad and segments: its own agent's, and one of its partner's agent that
spans the pair (R58). -/
def reservedOn (s : State) (core : Nat) : List (Nat × Nat × Nat × Nat) :=
  [core, core + 1 - 2 * (core % 2)].filterMap (fun a => (s.core a).held.bind (fun r =>
    if r.lower = core then some (r.slot, r.kb, r.scratch, r.segs)
    else if r.lower + 1 = core then r.upper.map (fun sl => (sl, r.kb2, r.scratch, r.segs))
    else none))

/-- Physical slots that reservations hold (R58). -/
def reservedSegs (s : State) (core : Nat) : Nat := ((reservedOn s core).map (fun r => r.2.2.2)).foldl (· + ·) 0

/-- Whether a core has no physical slot left for a CFETCH: those that a reservation holds are not free (R58, R136). -/
def imemFull (s : State) (core : Nat) : Bool := freePhysCount s core ≤ reservedSegs s core

def lslot (t : Team) (l : Nat) : LSlot := tget t.slots {} l
def setLslot (lower slot l : Nat) (f : LSlot → LSlot) (s : State) : State :=
  let t := s.team lower slot
  s.setTeam lower slot { t with slots := tput t.slots l (f (lslot t l)) }

/-- Takes the lowest free physical slot of one core for a team. -/
def takePhys (key core : Nat) (s : State) : Nat × State :=
  let p := (freePhys s core).getD 0
  (p, putCore core (fun c => { c with imemOwner := tput c.imemOwner p (key + 1) }) s)

/-- Binds a logical slot to a free physical slot on each core of the team (R130). -/
def bindSlot (lower slot l : Nat) (s : State) : State :=
  let key := teamKey lower slot
  let (p, s) := takePhys key lower s
  if (s.team lower slot).pair then
    let (q, s) := takePhys key (lower + 1) s
    setLslot lower slot l (fun x => { x with phys := p, phys2 := q }) s
  else setLslot lower slot l (fun x => { x with phys := p }) s

/-- Frees every physical slot of a team (R130). -/
def freeSlots (lower slot : Nat) (s : State) : State :=
  let key := teamKey lower slot
  let s := (teamCores lower (s.team lower slot)).foldl (fun s c =>
    putCore c (fun co => { co with imemOwner := co.imemOwner.filter (fun p => p.2 != key + 1) }) s) s
  s.setTeam lower slot { s.team lower slot with slots := [] }

/-- Starts a copy of 4,096 bytes into a logical slot: at a home translated at issue, or, where no CFETCH issues it, to be translated
when it lands, as an engine access of the team (R136). -/
def startLanding (lower slot l va : Nat) (home : Option Nat) (s : State) : State :=
  let t := s.team lower slot
  let s := if (lslot t l).st = .unbound then bindSlot lower slot l s else s
  let s := setLslot lower slot l (fun x => { x with st := .landing, source := va, cause := 0 }) s
  let o : EngOp := { kind := .code, lower := lower, slot := slot, group := 0, f := t.f, lslot := l, va := va, len := 4096,
                     home := home }
  State.due { setOp lower s.seq (some o) s with seq := s.seq + 1 } [{ instr := .landed lower (slot * 64 + l) }]

/-! ## CFETCH and CLAND (R136) -/

/-- Whether an unfinished path, a join slot, a parked lane or a return-stack entry of a group holds a PC in a slot. -/
def groupHolds (g : Group) (sl : Nat) : Bool :=
  g.gangs.any (fun x => pcSlot x.pc == sl) ||
    g.joins.any (fun j => match j.2 with
      | some k => pcSlot k.pc == sl || (lanesOf (k.parked &&& ~~~g.finished)).any (fun l => pcSlot (tget g.parkPc 0 l) == sl)
      | none => false) ||
    g.ret.any (fun q => q.2.any (fun r => pcSlot r.pc == sl))

/-- The same for the whole team. -/
def teamHolds (s : State) (e : Env) (sl : Nat) : Bool :=
  if e.isScalar then pcSlot e.ctx.pc == sl else (teamGroups s e).any (fun g => groupHolds g.2 sl)

/-- The wait of CFETCH with wait: the slot has landed, or the instruction traps with its cause. DESIGN CHOICE (log 116): ADDR is then
the slot's source, where a transfer into the slot reports 0. -/
def waitSlot (sl : Nat) (e : Env) (s : State) : Eff :=
  let l := lslot (s.team e.lower e.slot) sl
  match l.st with
  | .landing => .wait s
  | .failed => .trap l.cause none l.source s
  | _ => .done 1 s

/-- CFETCH. -/
def cfetchBody (d a : BitVec 6) (wait : Bool) (e : Env) (s : State) : Eff :=
  let sl := d.toNat
  if e.gang.progress.started then waitSlot sl e s
  else needs e [srcS a.toNat, srcS (a.toNat + 1)] s (
    let va := (e.ctx.readS a.toNat).toNat + (e.ctx.readS (a.toNat + 1)).toNat % 2 ^ 24 * 2 ^ 32
    if va % 4096 != 0 then .trap cMisaligned none va s
    else if teamHolds s e sl then .trap cSegBusy none 0 s
    else match translate e.core e.team.f va .code s with
      | (.error c, s) => laneTrap (none, c, va) s
      | (.ok p, s) =>
        if (lslot e.team sl).st = .unbound && (teamCores e.lower e.team).any (imemFull s) then
          .trap cImemFull none 0 s
        else
          let s := startLanding e.lower e.slot sl va (some p.h) s
          if wait then .wait (putProgress e { started := true } s) else .done 1 s)

def gFetch : Gate := { major := 0x09, scalarOk := true }

/-- CFETCH (R136, MODE 0). -/
def execCfetch (d a : BitVec 6) (s : State) : Host.Outcome State Fault Refusal :=
  run gFetch (cfetchBody d a false) s

/-- CFETCH with wait (R136, MODE 1). -/
def execCfetchWait (d a : BitVec 6) (s : State) : Host.Outcome State Fault Refusal :=
  run gFetch (cfetchBody d a true) s

/-- CLAND (R136, MODE 2). R135 allows CFETCH and CLAND in team-scalar mode. -/
def clandBody (d : BitVec 6) (e : Env) (s : State) : Eff :=
  if (lslot e.team d.toNat).st = .unbound then .trap cSegAbsent none 0 s else waitSlot d.toNat e s

def execCland (d : BitVec 6) (s : State) : Host.Outcome State Fault Refusal := run gFetch (clandBody d) s

/-! ## Landing -/

/-- The oldest copy into a logical slot. -/
def codeOp (s : State) (lower isl : Nat) : Option (Nat × EngOp) :=
  (s.core lower).ops.findSome? (fun o => match o.2 with
    | some x => if x.kind == .code && x.slot == isl / 64 && x.lslot == isl % 64 then some (o.1, x) else none
    | none => none)

/-- Where the copy reads from: translated at issue, or now, as an engine access of the team (R136). -/
def codeHome (core : Nat) (o : EngOp) (s : State) : Try Nat Nat :=
  match o.home with
  | some h => (.ok h, s)
  | none => (opPlace core o o.va .code s).bind (fun p s => (.ok p.1.h, s))

/-- The bytes of a segment, read once the cores of the team have written back their dirty lines, and with the bytes that the team
holds, so that its own earlier stores are seen (R137, R384). -/
def codeBytes (core : Nat) (o : EngOp) (h : Nat) (s : State) : Try Nat (List Byte) :=
  engineRead o (span h 4096) ((teamCores core (s.team o.lower o.slot)).foldl (fun s c => engineFlush c o.f s) s)

/-- The words of a segment into a physical slot of a core. -/
def putSegment (core phys : Nat) (bs : List Byte) (s : State) : State :=
  putCore core (fun c => { c with imem := (List.range 1024).foldl (fun t i =>
    tput t (phys * 1024 + i) (word (leNat ((bs.drop (4 * i)).take 4)))) c.imem }) s

/-- A team that lands its segments begins, or resumes, when none is still landing (R58, R139). -/
def beginCheck (lower slot : Nat) (s : State) : State :=
  let t := s.team lower slot
  if (t.status == .starting || t.status == .resuming) && !t.slots.any (fun l => l.2.st == .landing) then
    s.due [{ instr := .startTeam lower slot }]
  else s

/-- The copy ends: LANDED, or FAILED with its cause. -/
def endLanding (lower id cause : Nat) (o : EngOp) (s : State) : State :=
  let s := setOp lower id none s
  beginCheck lower o.slot (setLslot lower o.slot o.lslot (fun l =>
    if cause = 0 then { l with st := .landed } else { l with st := .failed, cause := cause }) s)

/-- LANDED (R136). -/
def landedEvent (lower isl : Nat) (s : State) : State :=
  match codeOp s lower isl with
  | none => s
  | some (id, o) =>
    match codeHome lower o s with
    | (.error c, s) => if opWaits s o c then engFault lower id o.va .code o s else endLanding lower id c o s
    | (.ok h, s) =>
      match codeBytes lower o h s with
      | (.error c, s) => endLanding lower id c o s
      | (.ok bs, s) =>
        let t := s.team lower o.slot
        let l := lslot t o.lslot
        let s := putSegment lower l.phys bs s
        let s := if t.pair then putSegment (lower + 1) l.phys2 bs s else s
        endLanding lower id 0 o s

def execLanded (core isl : Nat) (s : State) : Host.Outcome State Fault Refusal := event (landedEvent core isl) s

end Sys2Proof.Machine
end

