-- ==== Sys2Proof/Machine/Width.lean ====
section
/-! DEFINITION. Machine/Width.lean: group contexts and ports (R111, R119, R123), SETW (R118 to R121), the forming of groups
(R122, R128) and the choice of a grant at resume (R125). -/

namespace Sys2Proof.Machine

/-! ## Group contexts -/

/-- Width of a group context (R111). -/
def ctxWidth (core n : Nat) : Nat := if isStack core then 16 else if n < 16 then 64 else if n < 48 then 32 else 16
def ctxCount (core : Nat) : Nat := if isStack core then 64 else 112

/-- The groups that stand on a core: those with an unfinished thread, or whose context holds a frame. -/
def groupsOn (s : State) (core : Nat) : List (Nat × Group) := s.groups.filter (fun g => g.2.core == core && (g.2.live != 0 || g.2.stopped))

/-- Free contexts of a width or more, narrowest first, then by number (R119). -/
def freeCtxs (s : State) (core w : Nat) : List Nat :=
  let used := (groupsOn s core).map (fun g => g.2.ctxNo)
  let free := (List.range (ctxCount core)).filter (fun n => w ≤ ctxWidth core n && !used.contains n)
  [16, 32, 64].flatMap (fun v => free.filter (fun n => ctxWidth core n == v))

/-- Threads of a team on the lower and on the upper core (R110). -/
def threadsOn (t : Team) (upper : Bool) : Nat :=
  if t.pair then (if upper then t.teamsz - 1024 else 1024) else (if upper then 0 else t.teamsz)

/-- Whether a width fits a team (R119). -/
def widthFits (s : State) (lower : Nat) (t : Team) (w : Nat) : Bool :=
  let need : Nat → Nat := fun m => (m + w - 1) / w
  need (threadsOn t false) ≤ (freeCtxs s lower w).length &&
    (!t.pair || need (threadsOn t true) ≤ (freeCtxs s (lower + 1) w).length)

/-- The order in which widths are tried (R120). -/
def widthOrder (core req : Nat) (exact : Bool) : List Nat :=
  if isStack core then [16]
  else match req, exact with
    | 1, true => [16]
    | 2, true => [32]
    | 3, true => [64]
    | 1, false => [16, 64, 32]
    | 2, false => [32, 64, 16]
    | _, _ => [64, 32, 16]

/-! ## Ports (R123) -/

/-- Quads of a group that exist. -/
def quadCount (g : Group) : Nat := ((lanesOf g.present).map (· / 4)).eraseDups.length

/-- Quads bound to a port of a core. -/
def portLoad (s : State) (core port : Nat) : Nat :=
  ((groupsOn s core).filter (fun g => g.2.port == port)).foldl (fun n g => n + quadCount g.2) 0

/-- The port with the fewest quads bound, the lowest among equals. -/
def choosePort (s : State) (core : Nat) : Nat :=
  (List.range (portCount core)).foldl (fun b p => if portLoad s core p < portLoad s core b then p else b) 0

/-! ## Forming groups (R122) -/

/-- The core of a group: a pair team's threads from 1,024 on stand on the upper core (R110). -/
def groupCore (lower : Nat) (t : Team) (g G : Nat) : Nat := if t.pair && 1024 ≤ g * G then lower + 1 else lower

/-- Lanes of group g whose threads exist. -/
def presentLanes (teamsz g G : Nat) : BitVec 64 := maskOf ((List.range G).filter (fun l => g * G + l < teamsz))

/-- A new group: its scalar side a copy of the team-scalar context, one gang of every present lane at the next PC. DESIGN CHOICE
(log 132): it begins without a reservation (R122's table lists none). -/
def newGroup (t : Team) (lower g G ctxNo port : Nat) (c : Ctx) (pc : Word) (now : Nat) : Group :=
  let lanes := presentLanes t.teamsz g G
  { ctx := { c with pc := 0, p := [], progress := {}, results := [], qmod := 0 },
    p := (lanesOf lanes).foldl (fun t l => (List.range 7).foldl (fun t k =>
      if c.readP (k + 1) then tput t (l * 8 + k + 1) true else t) t) [],
    gangs := [{ id := 0, pc := pc, lanes := lanes, born := now }],
    nextGang := 1, present := lanes, ctxNo := ctxNo, port := port, core := groupCore lower t g G }

/-- Forms group g, in the narrowest free context of its core. -/
def formOne (lower slot G : Nat) (c : Ctx) (pc : Word) (s : State) (g : Nat) : State :=
  let t := s.team lower slot
  let core := groupCore lower t g G
  let n := (freeCtxs s core G).headD 0
  let s := s.setGroup lower slot g (newGroup t lower g G n (choosePort s core) c pc s.time)
  setFrame core n {} s

/-- The producer group of a team (R17, R18). -/
def producerOf (header : Word) (ngrp : Nat) : Option Nat :=
  let p := bits header.toNat 15 11
  if bit header.toNat 10 && p < ngrp then some p else none

/-- On a pair, what the prologue has stored on the lower core reaches its homes, and the upper core keeps no older byte of the
function, so that every group sees the prologue's accesses as its own (R122). -/
def sharePrologue (lower : Nat) (slot : Nat) (s : State) : State :=
  let t := s.team lower slot
  if t.pair then
    dropClean (lower + 1) (fun _ b => b.f == t.f) (writeBackTeam lower (teamKey lower slot) s)
  else s

/-- FormGroups(G) (R122), with the context every group copies and the PC at which it begins. -/
def formGroups (lower slot G : Nat) (c : Ctx) (pc : Word) (pin : Bool) (s : State) : State :=
  let s := sharePrologue lower slot s
  let t := s.team lower slot
  let n := (t.teamsz + G - 1) / G
  let s := s.setTeam lower slot { t with status := .running, g := G, ngrp := n, pin := pin, setwWait := none,
                                         producer := producerOf t.header n }
  (List.range n).foldl (formOne lower slot G c pc) s

/-! ## SETW (R121) -/

/-- Waiting SETWs on the cores of a team that began to wait earlier; of two that began at one time the lower core's and then
the lower slot's counts as the older: DESIGN CHOICE (log 107). -/
def olderWaits (s : State) (lower slot : Nat) (since : Nat) : Bool :=
  let mine := teamCores lower (s.team lower slot)
  s.teams.any (fun t => t.1 != teamKey lower slot && t.2.setwWait.any (fun w =>
      w < since || (w == since && t.1 < teamKey lower slot)) &&
    (teamCores (t.1 / 16) t.2).any mine.contains)

/-- The width a waiting SETW is granted now. -/
def setwGrant (s : State) (lower slot : Nat) : Option Nat :=
  let t := s.team lower slot
  let since := t.setwWait.getD s.time
  if olderWaits s lower slot since then none
  else (widthOrder lower (bits t.setwReq 1 0) (bit t.setwReq 3)).find? (widthFits s lower t)

/-- The request as a SETW asks it: the immediate of R118, and D above it. -/
def setwPack (r : SetwArgs) : Nat :=
  r.r.toNat + (if r.p then 4 else 0) + (if r.x then 8 else 0) + 16 * r.d.toNat

/-- A group that begins past the end of its slot traps with SEG_CROSS (R134). -/
def crossGroup (lower slot : Nat) (pc : Word) (s : State) (g : Nat) : State :=
  match mkEnv { s with who := some (.ctx (.group lower slot g) 0) } with
  | some e => takeTrap e cSegCross e.reportLane 0 pc pc s
  | none => s

/-- A granted SETW: the groups are formed at the next PC, each with the grant in D. -/
def grantSetw (lower slot G : Nat) (s : State) : State :=
  let t := s.team lower slot
  let pc := t.ctx.pc + 4
  let s := formGroups lower slot G (t.ctx.writeS (t.setwReq / 16) (word G)) pc (bit t.setwReq 2) s
  if pcWord pc = 0 then (List.range (s.team lower slot).ngrp).foldl (crossGroup lower slot pc) s else s

/-- SETW: grants a width at once, or waits. -/
def setwBody (r : SetwArgs) (e : Env) (s : State) : Eff :=
  if !e.isScalar then .trap cSetwTwice none 0 s
  else if isStack e.core && r.x && 2 ≤ r.r.toNat then .trap cWidthDenied none 0 s
  else if !e.ctx.results.isEmpty || e.ctx.pending true r.d.toNat then .wait s
  else
    let s := putTeam e (fun t => { t with setwReq := setwPack r, setwWait := some (t.setwWait.getD s.time) }) s
    match setwGrant s e.lower e.slot with
    | none => .wait s
    | some G => .moved (grantSetw e.lower e.slot G s)

def execSetw (r : SetwArgs) (s : State) : Host.Outcome State Fault Refusal :=
  run { major := 0x07, scalarOk := true } (setwBody r) s

/-- FORMGROUPS (R121, R122, R128): a waiting SETW that has gained room is served; that of a W16 team, which no instruction of
the team repeats, stays due until it is (Machine/Due.lean). -/
def formGroupsEvent (core slot : Nat) (s : State) : State :=
  let t := s.team core slot
  if t.setwWait.isSome && !t.stopped && !t.killed && !t.saving then
    match setwGrant s core slot with
    | none => s
    | some G => if t.w16 then formGroups core slot G t.ctx t.entry (bit t.setwReq 2) s else grantSetw core slot G s
  else s

def execFormGroups (core slot : Nat) (s : State) : Host.Outcome State Fault Refusal := event (formGroupsEvent core slot) s

/-- The grant a saved team resumes at (R125). -/
def resumeGrant (s : State) (lower : Nat) (t : Team) (G : Nat) (pin : Bool) : Option Nat :=
  ((if pin then [G] else [G, G / 2, G / 4]).filter (fun w => 16 ≤ w)).find? (widthFits s lower t)

end Sys2Proof.Machine
end

