-- ==== Sys2Proof/Machine/Acc.lean ====
section
/-! DEFINITION. Machine/Acc.lean: accumulator memory (R322 to R329): AALLOC, AFREE, ADRAIN, AZERO and AQUERY, and the order of
R325 among them and the matrix commands. -/

namespace Sys2Proof.Machine

/-! ## Banks -/

def accBank (s : State) (core b : Nat) : Option AccBank := tget (s.core core).accBanks none b

/-- Element (i, j) of a bank (R322). -/
def accKey (b i j : Nat) : Nat := b * 256 + 16 * i + j
def accRead (c : Core) (b i j : Nat) : Word := tget c.acc 0 (accKey b i j)

/-- Whether every bank of a list is allocated to a team. -/
def ownsBanks (s : State) (core team : Nat) (bs : List Nat) : Bool :=
  bs.all (fun b => b < 256 && (accBank s core b).any (fun x => x.team == team))

/-- Whether the band of some bank is owned by another group. -/
def bandTaken (s : State) (core group : Nat) (bs : List Nat) : Bool :=
  bs.any (fun b => (accBank s core b).any (fun x => x.owner.any (fun o => o != group)))

/-- Sets banks to zero. -/
def zeroBanks (core : Nat) (bs : List Nat) (s : State) : State :=
  putCore core (fun c => { c with acc := c.acc.filter (fun a => !bs.contains (a.1 / 256)) }) s

def freeBanks (core : Nat) (p : AccBank → Bool) (s : State) : State :=
  putCore core (fun c => { c with accBanks := c.accBanks.filter (fun b => match b.2 with
    | some x => !p x
    | none => false) }) s

/-- The lowest even bank at which a run of free banks begins (R326). -/
def freeRun (s : State) (core n : Nat) : Option Nat :=
  (List.range 128).map (2 * ·) |>.find? (fun b => b + n ≤ 256 && (span b n).all (fun k => (accBank s core k).isNone))

/-! ## The order of R325 -/

/-- Descriptor fields of a command (R331). -/
def mcWord (d : List Word) (k : Nat) : Nat := (d.getD k 0).toNat
def mcAccBase (d : List Word) : Nat := bits (mcWord d 4) 7 0
def mcMt (d : List Word) : Nat := bits (mcWord d 4) 15 8
def mcNt (d : List Word) : Nat := bits (mcWord d 4) 23 16
def mcModular (d : List Word) : Bool := bit (mcWord d 6) 5
def mcBanks (d : List Word) : Nat := mcMt d * mcNt d * (if mcModular d then 2 else 1)

/-- The unretired commands of a core's sequencer. -/
def coreCmds (s : State) (core : Nat) : List MCmd := s.teams.flatMap (fun t => t.2.cmds.filter (fun c => c.core == core))

/-- Whether an earlier command or drain of the core names one of the banks. -/
def earlierOn (s : State) (core seq : Nat) (bs : List Nat) : Bool :=
  (coreCmds s core).any (fun c => c.seq < seq &&
      bs.any (fun b => mcAccBase c.desc ≤ b && b < mcAccBase c.desc + mcBanks c.desc)) ||
    (s.core core).drains.any (fun d => d.seq < seq && bs.any (fun b => b == d.bank || (d.wide && b == d.bank + 1)))

/-! ## Meanings -/

def gAcc (minor : Nat) (named : List Nat := []) : Gate := { major := 0x34, minor := minor, named := named }

/-- A run of banks as AALLOC takes it (R326). -/
def takeRun (e : Env) (base nb bp : Nat) (s : State) : State :=
  let put : Tbl (Option AccBank) → Nat → Tbl (Option AccBank) := fun t k =>
    let x : AccBank := { team := teamKey e.lower e.slot, first := base, len := nb * bp, holder := e.gi, band := k / bp }
    tput t (base + k) (some x)
  putCore e.core (fun c => { c with accBanks := (List.range (nb * bp)).foldl put c.accBanks })
    (zeroBanks e.core (span base (nb * bp)) s)

/-- AALLOC (R326). -/
def aallocBody (r : SArgs) : Env → State → Eff := engine fun e s =>
  needs e [srcS r.a.toNat r.qa, srcS r.b.toNat r.qb, dstS r.d.toNat] s (
    let nb := (e.ctx.readS r.a.toNat).toNat
    let bp := (e.ctx.readS r.b.toNat).toNat
    if !bit e.team.header.toNat 9 || nb = 0 || bp = 0 || 256 < nb * bp then .done 1 (putS e r.d.toNat 0xFFFFFFFF s)
    else match freeRun s e.core (nb * bp) with
      | none => .done 1 (putS e r.d.toNat 0xFFFFFFFF s)
      | some base => .done 1 (putS e r.d.toNat (word base) (takeRun e base nb bp s)))

def execAalloc (r : SArgs) (s : State) : Host.Outcome State Fault Refusal := run (gAcc 0) (aallocBody r) s

/-- AFREE (R328). -/
def afreeBody (r : SrcArgs) : Env → State → Eff := engine fun e s =>
  needs e [srcS r.a.toNat r.qa] s (
    let b := (e.ctx.readS r.a.toNat).toNat
    let key := teamKey e.lower e.slot
    match (if b < 256 then accBank s e.core b else none) with
    | none => .trap cAccUnalloc none 0 s
    | some x =>
      if x.team != key || x.first != b then .trap cAccUnalloc none 0 s
      else if x.holder != e.gi then .trap cAccBand none 0 s
      else if earlierOn s e.core s.seq (span b x.len) then .wait s
      else .done 1 (freeBanks e.core (fun y => y.team == key && y.first == b) s))

def execAfree (r : SrcArgs) (s : State) : Host.Outcome State Fault Refusal := run (gAcc 1) (afreeBody r) s

/-- Bands that hold one of the banks get an owner (R327). -/
def claimBands (core group : Nat) (bs : List Nat) (s : State) : State :=
  let bands := bs.filterMap (fun b => (accBank s core b).map (fun x => (x.first, x.band)))
  putCore core (fun c => { c with accBanks := c.accBanks.map (fun b => (b.1, b.2.map (fun x =>
    if bands.contains (x.first, x.band) then { x with owner := some group } else x))) }) s

/-- What a drain writes: keys of the group's table of v registers. -/
def drainWrites (c : Core) (d : Drain) : List (Nat × Word) :=
  d.lanes.flatMap (fun l =>
    let i := d.row + l / 16
    if i < 16 then
      (l * 64 + d.reg, accRead c d.bank i (l % 16)) ::
        (if d.wide then [(l * 64 + d.reg + 1, accRead c (d.bank + 1) i (l % 16))] else [])
    else [])

/-- A drain that has waited out R325 delivers its result (R173). -/
def finishDrain (core : Nat) (d : Drain) (s : State) : State :=
  let ws := drainWrites (s.core core) d
  let g := s.group d.lower d.slot d.group
  let s := s.setGroup d.lower d.slot d.group { g with ctx := { g.ctx with results := g.ctx.results.map (fun r =>
    if r.seq == d.seq then { r with writes := ws } else r) } }
  State.due (putCore core (fun c => { c with drains := c.drains.filter (fun x => x.seq != d.seq) }) s)
    [{ instr := .resultWrite (.group d.lower d.slot d.group) d.seq }]

/-- Every drain of a core that waits no longer. -/
def serveDrains (core : Nat) (s : State) : State :=
  (s.core core).drains.foldl (fun s d =>
    if earlierOn s core d.seq (if d.wide then [d.bank, d.bank + 1] else [d.bank]) then s else finishDrain core d s) s

/-- ADRAIN (R327). -/
def adrainBody (r : SArgs) : Env → State → Eff := engine fun e s =>
  needs e [srcS r.a.toNat r.qa, srcS r.b.toNat r.qb, dstV r.d.toNat] s (
    let b := (e.ctx.readS r.a.toNat).toNat
    let c := (e.ctx.readS r.b.toNat).toNat
    let wide := bit c 8
    let bs := if wide then [b, b + 1] else [b]
    let regs := if wide then [r.d.toNat, r.d.toNat + 1] else [r.d.toNat]
    if bits c 31 9 != 0 || bits c 7 4 != 0 then .trap cReserved none 0 s
    else if wide && (b % 2 = 1 || r.d.toNat % 2 = 1) then .trap cReserved none 0 s
    else if regs.any (fun x => e.team.regs ≤ x) then .trap cRegRange none 0 s
    else if !ownsBanks s e.core (teamKey e.lower e.slot) bs then .trap cAccUnalloc none 0 s
    else if bandTaken s e.core e.gi bs then .trap cAccBand none 0 s
    else if regs.any (e.ctx.pending false) then .wait s
    else
      let d : Drain := { seq := s.seq, lower := e.lower, slot := e.slot, group := e.gi, reg := r.d.toNat, bank := b,
                         wide := wide, row := bits c 3 0, lanes := e.active }
      let res : Result := { seq := s.seq, scalar := false, regs := regs, writes := [] }
      let s := putCtx e (fun x => { x with results := x.results ++ [res] }) (claimBands e.core e.gi bs s)
      let s := putCore e.core (fun x => { x with drains := x.drains ++ [d] }) { s with seq := s.seq + 1 }
      .done 1 (serveDrains e.core s))

def execAdrain (r : SArgs) (s : State) : Host.Outcome State Fault Refusal := run (gAcc 2 [r.d.toNat]) (adrainBody r) s

/-- AZERO (R328). -/
def azeroBody (r : Src2Args) : Env → State → Eff := engine fun e s =>
  needs e [srcS r.a.toNat r.qa, srcS r.b.toNat r.qb] s (
    let b := (e.ctx.readS r.a.toNat).toNat
    let n := (e.ctx.readS r.b.toNat).toNat
    if n = 0 then .done 1 s
    else if 256 < b + n then .trap cAccUnalloc none 0 s
    else if !ownsBanks s e.core (teamKey e.lower e.slot) (span b n) then .trap cAccUnalloc none 0 s
    else if bandTaken s e.core e.gi (span b n) then .trap cAccBand none 0 s
    else if earlierOn s e.core s.seq (span b n) then .wait s
    else .done 1 (zeroBanks e.core (span b n) s))

def execAzero (r : Src2Args) (s : State) : Host.Outcome State Fault Refusal := run (gAcc 3) (azeroBody r) s

/-- The longest run of free banks that begins at an even bank (R329). -/
def longestRun (s : State) (core : Nat) : Nat :=
  ((List.range 128).map (fun k => ((span (2 * k) (256 - 2 * k)).takeWhile (fun b => (accBank s core b).isNone)).length)).foldl
    max 0

/-- The report of AQUERY (R329). -/
def aqueryWord (s : State) (e : Env) (b : Nat) : Nat :=
  if b = 0xFFFFFFFF then
    ((List.range 256).filter (fun k => (accBank s e.core k).isNone)).length * 0x10000 + longestRun s e.core
  else if 256 ≤ b then 0
  else match accBank s e.core b with
    | none => 0
    | some x =>
      if x.team != teamKey e.lower e.slot then 0
      else 0x80000000 + (if x.holder = e.gi then 0x40000000 else 0) +
        (match x.owner with
          | none => 0
          | some o => if o = e.gi then 0x10000000 else 0x20000000) + x.band * 0x10000 + x.first

/-- AQUERY (R329). -/
def aqueryBody (r : UArgs) : Env → State → Eff := engine fun e s =>
  needs e [srcS r.a.toNat r.qa, dstS r.d.toNat] s
    (.done 1 (putS e r.d.toNat (word (aqueryWord s e (e.ctx.readS r.a.toNat).toNat)) s))

def execAquery (r : UArgs) (s : State) : Host.Outcome State Fault Refusal := run (gAcc 4) (aqueryBody r) s

end Sys2Proof.Machine
end

