-- ==== Sys2Proof/Machine/Atomic.lean ====
section
/-! DEFINITION. Machine/Atomic.lean: the atomics ATOM (R299 to R304): performed at the home of the location, with the
reservations of LR and SC, and the acquire and release of LDAQ and STRL. -/

namespace Sys2Proof.Machine

/-! ## Minors (R299) -/

def aCas : Nat := 9
def aFadd : Nat := 10
def aLr : Nat := 11
def aSc : Nat := 12
def aLdaq : Nat := 13
def aStrl : Nat := 14

/-- SZ: a doubleword, and scalar data. -/
def atomDword (r : AtomArgs) : Bool := r.sz.getLsbD 0
def atomScalarData (r : AtomArgs) : Bool := r.sz.getLsbD 1
/-- Registers of a value, and of the operand in D. -/
def atomWords (r : AtomArgs) : Nat := if atomDword r then 2 else 1
def atomOperand (op : Nat) (r : AtomArgs) : List Nat := span r.d.toNat (if op = aCas then 2 * atomWords r else atomWords r)
def atomBytes (r : AtomArgs) : Nat := 4 * atomWords r

/-- The operand of a lane: its first value and, for CAS, the second. -/
def opValue (ws : List Word) : Nat := leNat (ws.flatMap (fun w => leBytes 4 w.toNat))

/-- BankAdd (R302). -/
def bankAdd (a b : Nat) : Nat :=
  match deliver { rnd := 0, ovf := 1, ftz := false } tF32 [] ((floatVal tF32 false a).add false (floatVal tF32 false b)) with
  | .ok (x, _) => x
  | .error _ => 0

/-- The new value of R301 for the minors that compute one; `x` is the operand, `y` the swap value of CAS, `n` the width. -/
def atomNew (op n m x y : Nat) : Nat :=
  match op with
  | 0 => (m + x) % 2 ^ n
  | 1 => if signed n m ≤ signed n x then m else x
  | 2 => if signed n m ≤ signed n x then x else m
  | 3 => min m x
  | 4 => max m x
  | 5 => m &&& x
  | 6 => m ||| x
  | 7 => m ^^^ x
  | 8 => x
  | 9 => if m = x then y else m
  | 10 => bankAdd m x
  | 14 => x
  | _ => m

/-- Minors that store whatever the value. -/
def alwaysStores (op : Nat) : Bool := op == 8 || op == aStrl

/-! ## Reservations (R303) -/

/-- The lane number of a scalar atomic of a group: the lanes of the gang, each of which executes it. -/
def scalarLane : Nat := 64

/-- The threads whose reservation an LR sets and an SC consumes: the lane, or every lane of the gang (R303, log 128). -/
def reservers (e : Env) (lane : Nat) : List Nat := if lane = scalarLane then e.gangLanes else [lane]

/-- The reservation that all of them hold, if they hold one. -/
def reservationOf (e : Env) (lane : Nat) (s : State) : Option Reservation :=
  match e.ref with
  | .group c sl g =>
    let held := (reservers e lane).map (tget (s.group c sl g).reserv none)
    if held.all (· == held.headD none) then held.headD none else none
  | .scalar c sl => (s.team c sl).reservation
  | .agent c => (s.core c).reservation

def setReservation (e : Env) (lane : Nat) (r : Option Reservation) (s : State) : State :=
  match e.ref with
  | .group _ _ _ => putGroup e (fun g => { g with reserv := (reservers e lane).foldl (fun t l => tput t l r) g.reserv }) s
  | .scalar _ _ => putTeam e (fun t => { t with reservation := r }) s
  | .agent c => putCore c (fun x => { x with reservation := r }) s

/-! ## One lane -/

/-- A located atomic: lane, places, operand words, and the old value where the location lies outside the device. -/
structure AtomAccess where
  lane : Nat
  places : List Place
  operand : List Word
  outside : Option (List Byte)
  deriving DecidableEq, Repr

def AtomAccess.home (x : AtomAccess) : Nat := (x.places.headD { h := 0 }).h
def AtomAccess.line (x : AtomAccess) : Nat := x.home / 64

/-- The issuing core's dirty bytes of the line go home, and its copy is dropped (R300). -/
def flushLine (e : Env) (line : Nat) (s : State) : State :=
  if e.isAgent || hIsSpad (64 * line) then s
  else dropClean e.core (fun h _ => h / 64 == line) (writeBack e.core (fun h _ => h / 64 == line) s)

/-- The lines of a location: two for a private doubleword, whose words stand apart (R270). -/
def flushHomes (e : Env) (hs : List Nat) (s : State) : State :=
  ((hs.map (· / 64)).eraseDups).foldl (fun s ln => flushLine e ln s) s

/-- Locating and testing one lane (R293 steps 5 to 12), its lines flushed before they are tested. STRL reads nothing at the home, so
no block is checked for it. -/
def atomLocate (op : Nat) (r : AtomArgs) (e : Env) (w : Window) (x : Int) (lane : Nat) (ws : List Word) (s : State) :
    Try LaneFault AtomAccess :=
  let n := atomBytes r
  let name : Option Nat := if atomScalarData r then none else some lane
  let acc := if e.isAgent && (op = aLr || op = aLdaq) then Acc.load else .atomic
  ((locate e w x 0 n (sizeBad n) (e.thread lane) acc (fun tag => tag) s).mapError (fun c => (name, c))).bind (fun ps s =>
    let p := ps.headD { h := 0 }
    let done := fun (o : Option (List Byte)) (s : State) =>
      ((.ok { lane := lane, places := ps, operand := ws, outside := o }, s) : Try LaneFault AtomAccess)
    let fail := fun (c : Nat) => ((name, c, p.va) : LaneFault)
    if e.isAgent && hTarget p.h == 2 then (.error (fail cProtection), s)
    else if e.isAgent && hTarget p.h == 0 && op != aStrl then
      ((agentLoad e.core ps s).mapError fail).bind (fun bs s => done (some bs) s)
    else if hIsSpad p.h then done none s
    else if 2 ≤ hTarget p.h then ((outsideRead e.team.f p.h n s).mapError fail).bind (fun bs s => done (some bs) s)
    else if op = aStrl then done none s
    else match checkHomes (ps.map (·.h)) (flushHomes e (ps.map (·.h)) s) with
      | (some c, s) => (.error (fail c), s)
      | (none, s) => done none s)

/-- A write at the home; outside the device it is the partner's. -/
def atomStore (e : Env) (x : AtomAccess) (n new : Nat) (s : State) : State :=
  if !hIsSpad x.home && 2 ≤ hTarget x.home then s
  else homeWrite (e.writer x.lane) ((x.places.map (·.h)).zip (leBytes n new)) s

/-- What the memory model notes of an access (R371, R383): a release write is recorded at its line, an ATOM read is
collected for a later acquire FENCE. -/
def noteAccess (op : Nat) (r : AtomArgs) (e : Env) (x : AtomAccess) (wrote : Bool) (s : State) : State :=
  let sc := r.sc.toNat
  let rel := op == aStrl || (wrote && sc < (s.ctx e.ref).fenced)
  let s := if !e.isAgent && rel && (sc == 2 || sc == 3) then recordRelease e x.line s else s
  if op = aLdaq then acquireLines e sc [x.line] s
  else if op = aStrl || sc < 2 then s
  else putCtx e (fun c => { c with collected := (c.collected.filter (· != x.line)) ++ [x.line] }) s

/-- Whether SC finds its reservation; a partner device answers for a line of its own. -/
def scHolds (e : Env) (x : AtomAccess) (s : State) : Bool × State :=
  let held := reservationOf e x.lane s == some { line := x.line }
  if !hIsSpad x.home && 2 ≤ hTarget x.home then
    let (w, s) := s.drawWord
    (held && bit w.toNat 0, s)
  else (held, s)

/-- One lane of an atomic (R301): the result words and the state after it. -/
def atomPerform (op : Nat) (r : AtomArgs) (e : Env) (x : AtomAccess) (s : State) : List Word × State :=
  let n := atomBytes r
  let hs := x.places.map (·.h)
  let s := countShared e x.places (reachHomes hs (flushHomes e hs s))
  let old := leNat (match x.outside with
    | some bs => bs
    | none => x.places.map (fun p => homeByte s p.h))
  let v := opValue (x.operand.take (atomWords r))
  let y := opValue (x.operand.drop (atomWords r))
  let words := fun (k : Nat) => (List.range (atomWords r)).map (fun i => word (k >>> (32 * i)))
  if op = aLr then
    (words old, noteAccess op r e x false (setReservation e x.lane (some { line := x.line }) s))
  else if op = aSc then
    let (ok, s) := scHolds e x s
    let s := setReservation e x.lane none (if ok then atomStore e x n v s else s)
    (words (if ok then 0 else 1), noteAccess op r e x ok (if ok then graphCheck x.home s else s))
  else
    let new := atomNew op (8 * n) old v y
    let wrote := alwaysStores op || new != old
    (words old, noteAccess op r e x wrote (graphCheck x.home (if wrote then atomStore e x n new s else s)))

/-- The lanes of an atomic in ascending order, each seeing the results of those below it. -/
def atomLanes (op : Nat) (r : AtomArgs) (e : Env) : List AtomAccess → State → List (Nat × List Word) × State
  | [], s => ([], s)
  | x :: xs, s =>
    let (v, s) := atomPerform op r e x s
    let (vs, s) := atomLanes op r e xs s
    ((x.lane, v) :: vs, s)

/-- Whether the write of an atomic is a release write: STRL, or a write that follows a FENCE with release at its scope or
wider (R371). -/
def isRelease (op : Nat) (r : AtomArgs) (e : Env) : Bool :=
  op == aStrl || (op != aLr && op != aLdaq && r.sc.toNat < e.ctx.fenced)

/-- What a release does before the write: write-backs, a wait for acknowledgements, or REMOTE_FAIL (R382, R386). -/
def strlRelease (op : Nat) (r : AtomArgs) (e : Env) (s : State) : Eff × State :=
  let sc := r.sc.toNat
  if !isRelease op r e then (.done 1 s, s)
  else
    let s := releaseLines e sc s
    if releaseWaits e sc s then (.wait s, s)
    else if 4 ≤ sc && e.team.remoteFail then (.trap cRemoteFail none 0 s, s)
    else (.done 1 s, s)

/-- The atomic once every lane is located. -/
def atomFinish (op : Nat) (r : AtomArgs) (e : Env) (w : Window) (xs : List AtomAccess) (s : State) : Eff :=
  if e.team.prov then stallProv e s
  else match strlRelease op r e (if w.kind = .global || w.kind = .priv then endRestart e s else s) with
    | (.done _ _, s) =>
      let (vs, s) := atomLanes op r e xs s
      let regs := if op = aStrl then [] else span r.d.toNat (atomWords r)
      if regs.isEmpty then .done 1 s
      else if atomScalarData r then .done 1 (sendResult e.ref true regs (regs.zip ((vs.headD (0, [])).2)) s)
      else .done 1 (sendResult e.ref false regs (loadWrites r.d.toNat vs) s)
    | (x, _) => x

/-- An atomic with vector data. -/
def atomVector (op : Nat) (r : AtomArgs) : Env → State → Eff := vec fun e s =>
  let w := e.ctx.window r.w.toNat
  let regs := atomOperand op r
  needs e (addendOpnd srcV r.a ++ regs.map (fun x => srcV x)) s
    (if !kindsV.contains w.kind then .trap cWindowKind none 0 s
    else match tryEach (fun l s => atomLocate op r e w (addendV e r.a l) l (regs.map (fun x => e.group.readV x l)) s)
        e.active s with
      | (.error c, s) => laneTrap c s
      | (.ok xs, s) => atomFinish op r e w xs s)

/-- An atomic with scalar data. -/
def atomScalar (op : Nat) (r : AtomArgs) (e : Env) (s : State) : Eff :=
  let w := e.ctx.window r.w.toNat
  let regs := atomOperand op r
  needs e (addendOpnd srcS r.a ++ regs.map (fun x => srcS x)) s
    (if !kindsS.contains w.kind then .trap cWindowKind none 0 s
    else match atomLocate op r e w (addendS e r.a) scalarLane (regs.map e.ctx.readS) s with
      | (.error c, s) => laneTrap c s
      | (.ok x, s) => atomFinish op r e w [x] s)

def atomBody (op : Nat) (r : AtomArgs) : Env → State → Eff := if atomScalarData r then atomScalar op r else atomVector op r

def gAtom (op : Nat) (r : AtomArgs) : Gate :=
  if atomScalarData r then { major := 0x29, minor := op, agent := .yes, scalarOk := true, legacy := true }
  else { major := 0x29, minor := op, named := atomOperand op r ++ addendReg r.a, quadCost := 1, wide := 2 }

/-- ATOM minor 0, ADD (R301). -/
def execAtomAdd (r : AtomArgs) (s : State) : Host.Outcome State Fault Refusal := run (gAtom 0 r) (atomBody 0 r) s

/-- ATOM minor 1, MIN (R301). -/
def execAtomMin (r : AtomArgs) (s : State) : Host.Outcome State Fault Refusal := run (gAtom 1 r) (atomBody 1 r) s

/-- ATOM minor 2, MAX (R301). -/
def execAtomMax (r : AtomArgs) (s : State) : Host.Outcome State Fault Refusal := run (gAtom 2 r) (atomBody 2 r) s

/-- ATOM minor 3, MINU (R301). -/
def execAtomMinu (r : AtomArgs) (s : State) : Host.Outcome State Fault Refusal := run (gAtom 3 r) (atomBody 3 r) s

/-- ATOM minor 4, MAXU (R301). -/
def execAtomMaxu (r : AtomArgs) (s : State) : Host.Outcome State Fault Refusal := run (gAtom 4 r) (atomBody 4 r) s

/-- ATOM minor 5, AND (R301). -/
def execAtomAnd (r : AtomArgs) (s : State) : Host.Outcome State Fault Refusal := run (gAtom 5 r) (atomBody 5 r) s

/-- ATOM minor 6, OR (R301). -/
def execAtomOr (r : AtomArgs) (s : State) : Host.Outcome State Fault Refusal := run (gAtom 6 r) (atomBody 6 r) s

/-- ATOM minor 7, XOR (R301). -/
def execAtomXor (r : AtomArgs) (s : State) : Host.Outcome State Fault Refusal := run (gAtom 7 r) (atomBody 7 r) s

/-- ATOM minor 8, SWAP (R301). -/
def execAtomSwap (r : AtomArgs) (s : State) : Host.Outcome State Fault Refusal := run (gAtom 8 r) (atomBody 8 r) s

/-- ATOM minor 9, CAS (R299). -/
def execAtomCas (r : AtomArgs) (s : State) : Host.Outcome State Fault Refusal := run (gAtom 9 r) (atomBody 9 r) s

/-- ATOM minor 10, FADD (R302). -/
def execAtomFadd (r : AtomArgs) (s : State) : Host.Outcome State Fault Refusal := run (gAtom 10 r) (atomBody 10 r) s

/-- ATOM minor 11, LR (R303). -/
def execAtomLr (r : AtomArgs) (s : State) : Host.Outcome State Fault Refusal := run (gAtom 11 r) (atomBody 11 r) s

/-- ATOM minor 12, SC (R303). -/
def execAtomSc (r : AtomArgs) (s : State) : Host.Outcome State Fault Refusal := run (gAtom 12 r) (atomBody 12 r) s

/-- ATOM minor 13, LDAQ (R304). -/
def execAtomLdaq (r : AtomArgs) (s : State) : Host.Outcome State Fault Refusal := run (gAtom 13 r) (atomBody 13 r) s

/-- ATOM minor 14, STRL (R304). -/
def execAtomStrl (r : AtomArgs) (s : State) : Host.Outcome State Fault Refusal := run (gAtom 14 r) (atomBody 14 r) s

end Sys2Proof.Machine
end

