-- ==== Sys2Proof/Machine/Fetch.lean ====
section
/-! DEFINITION. Machine/Fetch.lean: fetching an instruction's words from instruction memory (R131, R138, R140), which row of a
shared word applies (R58, R391, R397), who issues next (R175, R176), and the set-up that makes one word the next to issue. -/

namespace Sys2Proof.Machine

/-! ## Fetching -/

/-- Six words from a word index of a table of instruction words, kept within one slot of 1,024 words. -/
def slotWords (t : Tbl Word) (base w : Nat) : List Word :=
  (List.range 6).map (fun i => if w + i < 1024 then tget t 0 (base + w + i) else 0)

/-- The physical slot that holds a logical slot on the core of the environment (R130). -/
def Env.physSlot (e : Env) (l : LSlot) : Nat := if e.core = e.lower then l.phys else l.phys2

/-- The words at the issuer's PC, or the cause of R138. The agent slot fetches from its firmware store. -/
def fetchWords (s : State) (e : Env) : Except Nat (List Word) :=
  let pc := e.gang.pc.toNat
  if e.isAgent then
    .ok ((List.range 6).map (fun i => tget (s.core e.core).agentCode 0 (pc / 4 + i)))
  else if 0x40000 ≤ pc || pc % 4 != 0 then .error cSegAbsent
  else
    let l := tget e.team.slots {} (pcSlot e.gang.pc)
    match l.st with
    | .landed => .ok (slotWords (s.core e.core).imem (e.physSlot l * 1024) (pcWord e.gang.pc))
    | .failed => .error l.cause
    | _ => .error cSegAbsent

/-- The minor field of a word, where its major has one (R162). -/
def minorOf (w : Word) : Nat :=
  let m := (fM w).toNat
  if m = 0x19 || m = 0x1A then (qF w).toNat else (fF w).toNat

/-- The row of the table that applies to a word several rows share: RTT by STAGE.ACTION (R391, R392), DISP by the value of
sB (R58), `trap 15` by whether the group is in its handler (R397). -/
def selectRow (s : State) (e : Env) (i : Instr) : Instr :=
  match i with
  | .fail =>
    if e.isAgent then
      match bits (s.core e.core).stage.toNat 2 0 with
      | 1 => .resume
      | 2 => .handler
      | 3 => .hold
      | 4 => .step
      | 5 => .waitPage
      | 6 => .abort
      | _ => .fail
    else .fail
  | .disp r =>
    if e.ctx.readS r.b.toNat == 0xFFFFFFFF then .dispReserve r
    else if e.ctx.readS r.b.toNat == 0xFFFFFFFE then .dispRelease r
    else .disp r
  | .handlerReturn =>
    if e.group.handler.isSome then .handlerReturn else .trap 15
  | i => i

/-- The cause of a word whose fields the decoder refuses: an absent major or minor comes before RESERVED_FIELD (R165). -/
def refusedCause (e : Env) (w : Word) : Nat := (absentCause e (fM w).toNat (minorOf w)).getD cReserved

/-- The microword at a unit's PC; a store word never loaded is HALT (R349). -/
def unitWord (u : Unit) : BitVec 64 := tget u.store 0x6000000000000000 u.pc

/-! ## Who issues next -/

/-- The gangs of a group in the order in which the group offers them (R176): the current gang while its streak is below 32,
then the others by how long they have waited, ties by the lowest thread (log 125). -/
def gangOrder (g : Group) : List Gang :=
  let byWait := g.gangs.mergeSort (fun a b =>
    decide (a.waited < b.waited) || (a.waited == b.waited && (lanesOf a.lanes).headD 64 ≤ (lanesOf b.lanes).headD 64))
  let cur := byWait.filter (fun a => a.id == g.current)
  if g.streak < 32 then cur ++ byWait.filter (fun a => a.id != g.current) else byWait

/-- A group under a debug step offers only the first of the gangs that have not issued, by their lowest thread: a gang that is
not ready is waited for (R181). One in its user handler offers only the gangs of the handler (R396). -/
def offered (g : Group) : List Gang :=
  let open_ : Gang → Bool := fun a => match g.handler with
    | some m => (a.lanes &&& m) != 0
    | none => true
  match g.stepping with
  | none => (gangOrder g).filter open_
  | some st => ((g.gangs.filter (fun a => st.todo.contains a.id)).mergeSort (fun a b =>
      (lanesOf a.lanes).headD 64 ≤ (lanesOf b.lanes).headD 64)).take 1

/-- Makes `id` the group's current gang, with a fresh streak where it was not (R176). -/
def makeCurrent (g : Group) (id : Nat) : Group := if g.current == id && g.streak < 32 then g else { g with current := id, streak := 0 }

/-- The issuer takes its turn: a gang that is not its group's current one becomes it. -/
def takeTurn (w : Who) (s : State) : State :=
  match w with
  | .ctx (.group c sl g) id => s.setGroup c sl g (makeCurrent (s.group c sl g) id)
  | _ => s

/-- The turn of a gang that did not issue is as though it had never been offered (R176). -/
def keepTurn (w : Who) (before s : State) : State :=
  match w with
  | .ctx (.group c sl g) _ =>
    s.setGroup c sl g { s.group c sl g with current := (before.group c sl g).current, streak := (before.group c sl g).streak }
  | _ => s

/-- The physical bank whose unit serves a logical bank (R348): the one its context stays at during a move (R447), else stack, channel
and bank of its first row block's map entry. -/
def physBank (s : State) (k : Nat) : Nat :=
  (s.unit k).bankAt.getD (bits (mapEntry s (k / 8192) (k % 8192) 0) 28 16)

/-- Contexts of a physical bank that can run. -/
def bankRunners (s : State) (pb : Nat) : List Nat :=
  (s.units.filter (fun u => u.2.run == .running && u.2.stalled.isNone && physBank s u.1 == pb)).map (·.1)

/-- The context after the present one of a unit, in round-robin order (R368). -/
def nextRunner (s : State) (pb : Nat) : Option Nat :=
  ((bankRunners s pb).find? (fun k => tget s.banks 0 pb < k + 1)).orElse (fun _ => (bankRunners s pb).head?)

/-- Whether the present context of a unit keeps it: it runs, be it that the controller corrects a block for it (R356, R367). -/
def unitHeld (s : State) (pb : Nat) : Bool :=
  let cur := tget s.banks 0 pb
  0 < cur && (s.unit (cur - 1)).run == .running && physBank s (cur - 1) == pb

/-- A unit runs one of its contexts at a time (R368): the present one while that runs, else the next. -/
def unitTurn (s : State) (k : Nat) : Bool :=
  let pb := physBank s k
  if unitHeld s pb then tget s.banks 0 pb == k + 1 else nextRunner s pb == some k

/-- The issue port of a team-scalar context (R167). -/
def scalarPort (core slot : Nat) : Nat := if isStack core then slot % 4 else slot % 8

/-- The tie-break among issuers that have never issued (R175): core, port, GIDX, and the team slot held on that core. The agent
slot, on its own scalar path, counts as port 8. -/
def issueRank (core port gidx slot : Nat) : Nat := ((core * 9 + port) * 128 + gidx) * 16 + slot

/-- Every issuer that may issue, with the time of its last issue and the tie-break. -/
def issuers (s : State) : List (Nat × Nat × Who) :=
  let agents := (s.cores.filter (fun c => c.2.agentWork && !c.2.agentStopped)).map (fun c =>
    (c.2.agentStamp, issueRank c.1 8 0 0, Who.ctx (.agent c.1) 0))
  let scalars := (s.teams.filter (fun t => t.2.status == .scalar && !t.2.stopped && !t.2.killed && !t.2.saving)).map (fun t =>
    (t.2.stamp, issueRank (t.1 / 16) (scalarPort (t.1 / 16) (t.1 % 16)) 0 (t.1 % 16), Who.ctx (.scalar (t.1 / 16) (t.1 % 16)) 0))
  let groups := (s.groups.filter (fun g => !g.2.stopped && !g.2.gangs.isEmpty &&
      (tget s.teams {} (g.1 / 128)).status == .running && !(tget s.teams {} (g.1 / 128)).killed)).flatMap (fun g =>
    ((offered g.2).filter (fun ga => ga.progress.mid || !(tget s.teams {} (g.1 / 128)).saving)).map (fun ga =>
      let t := tget s.teams {} (g.1 / 128)
      (g.2.stamp, issueRank g.2.core g.2.port (g.1 % 128) (if g.2.core = g.1 / 2048 then g.1 / 128 % 16 else t.upperSlot),
      Who.ctx (.group (g.1 / 128 / 16) (g.1 / 128 % 16) (g.1 % 128)) ga.id)))
  let units := (s.units.filter (fun u => u.2.run == .running && u.2.stalled.isNone && unitTurn s u.1)).map (fun u =>
    (u.2.stamp, u.1, Who.unit u.1))
  agents ++ scalars ++ groups ++ units

/-- The issuers in the order in which they are offered the next step: longest since their last issue first. -/
def issueOrder (s : State) : List Who :=
  ((issuers s).mergeSort (fun a b => decide (a.1 < b.1) || (a.1 == b.1 && a.2.1 ≤ b.2.1))).map (·.2.2)

/-! ## One word as the next to issue -/

/-- Which kind of context a word is placed in: the agent slot for RTT and SYSX, a team-scalar context for SETW, a stack core
for BANK, a W16 team for DIV, REM and FDIV, a formed group otherwise. -/
def placeKind (w : Word) : Nat :=
  let m := (fM w).toNat
  if m = 0x3C || (m = 0 && minorOf w = 9) then 0
  else if m = 0x07 then 1
  else if m = 0x36 then 2
  else if (m = 0x14 && (minorOf w = 25 || minorOf w = 26)) || (m = 0x18 && minorOf w = 13) then 3
  else 4

/-- A table of words from index 0. -/
def wordTable (ws : List Word) : Tbl Word := ws.zipIdx.map (fun p => (p.2, p.1))

/-- The team that holds a placed word: 16 threads at grant 16, or team-scalar, its code in physical slot 0. -/
def placedTeam (kind : Nat) : Team :=
  { status := (if kind = 1 then .scalar else .running), teamsz := 16, nteam := 1, g := (if kind = 1 then 0 else 16),
    ngrp := (if kind = 1 then 0 else 1), w16 := kind == 3, slots := [(0, { st := .landed })],
    header := 0x00060001, scratch := 0x1000, remoteFail := false }

/-- The group that holds a placed word: one gang of 16 lanes at PC 0. -/
def placedGroup (core : Nat) : Group :=
  { present := 0xFFFF, gangs := [{ id := 0, pc := 0, lanes := 0xFFFF }], nextGang := 1, core := core,
    ctxNo := (if isStack core then 0 else 48), ctx := { win := [(15, { kind := .priv })] } }

/-- The machine with one instruction's words as the next to issue: nothing else is due, and the chosen context stands at
them. -/
def placeWords (s : State) (ws : List Word) : State :=
  let kind := placeKind (ws.headD 0)
  let s := { s with agenda := [], power := .service, waited := false }
  if kind = 0 then
    { putCore 0 (fun c => { c with agentCode := wordTable ws, agentWork := true, agentStopped := false,
                                   ctx := { c.ctx with pc := 0 } }) s with
      turn := some (.ctx (.agent 0) 0) }
  else
    let core := if kind = 2 then 512 else 0
    let s := putCore core (fun c => { c with imem := wordTable ws }) s
    let s := s.setTeam core 0 (placedTeam kind)
    if kind = 1 then { s with turn := some (.ctx (.scalar core 0) 0) }
    else { s.setGroup core 0 0 (placedGroup core) with turn := some (.ctx (.group core 0 0) 0) }

end Sys2Proof.Machine
end

