-- ==== Sys2Proof/Machine/Operands.lean ====
section
/-! DEFINITION. Machine/Operands.lean: the operand forms of the arithmetic instructions: registers and pairs (R206), packed
elements (R205), the scalar broadcast (R151, R226), scalar operands (R228), and the order in which a typed vector instruction
raises its causes (R227). -/

namespace Sys2Proof.Machine

/-- A vector source: a vector register, or a scalar register that stands for it in every lane. -/
inductive VSrc where
  | v (r : Nat) (q : Bool)
  | s (r : Nat) (q : Bool)
  deriving DecidableEq, Repr

def VSrc.reg : VSrc → Nat
  | .v r _ => r
  | .s r _ => r

/-- The registers of an operand: one, or a pair under a 64-bit type. -/
def unitRegs (wide : Bool) (r : Nat) : List Nat := if wide then [r, r + 1] else [r]

def VSrc.opnds (wide : Bool) : VSrc → List Opnd
  | .v r q => (unitRegs wide r).map (fun x => srcV x q)
  | .s r q => (unitRegs wide r).map (fun x => srcS x q)

/-- The vector registers an operand names (R35). -/
def VSrc.vregs (wide : Bool) : VSrc → List Nat
  | .v r _ => unitRegs wide r
  | .s _ _ => []

/-- A register or a pair of a lane, low word in the even register (R3). -/
def Group.readUnit (g : Group) (wide : Bool) (r l : Nat) : Nat :=
  (g.readV r l).toNat + (if wide then (g.readV (r + 1) l).toNat * 2 ^ 32 else 0)
def Ctx.readUnit (c : Ctx) (wide : Bool) (r : Nat) : Nat :=
  (c.readS r).toNat + (if wide then (c.readS (r + 1)).toNat * 2 ^ 32 else 0)

/-- An operand of a lane. -/
def VSrc.read (e : Env) (wide : Bool) (l : Nat) : VSrc → Nat
  | .v r _ => e.group.readUnit wide r l
  | .s r _ => e.ctx.readUnit wide r

/-- The B operand of a word with the broadcast bit. -/
def bSrc (x : Bool) (b : BitVec 6) (qb : Bool) : VSrc := if x then .s b.toNat qb else .v b.toNat qb

/-- A register or pair of a lane as register writes. -/
def unitWrites (wide : Bool) (r l x : Nat) : List (Nat × Nat × Word) :=
  if wide then [(r, l, loWord x), (r + 1, l, hiWord x)] else [(r, l, word x)]

/-- The elements of a unit, element 0 first (R205). -/
def elemsOf (t x : Nat) : List Nat :=
  (List.range (perUnit t)).map (fun i => x / 2 ^ (elemWidth t * i) % 2 ^ elemWidth t)

/-- Elements as a unit. -/
def ofElems (t : Nat) (xs : List Nat) : Nat :=
  (xs.zipIdx.map (fun p => p.1 % 2 ^ elemWidth t * 2 ^ (elemWidth t * p.2))).sum

def Res.isZFormat {α : Type} (r : Res α) : Bool :=
  match r with
  | .error c => c == cZFormat
  | .ok _ => false

/-- Results in order, their flags ORed; a Z_FORMAT among them comes before an overflow (R227). -/
def collect {α : Type} : List (Res α) → Res (List α)
  | [] => .ok ([], 0)
  | .error c :: r => .error (if r.any Res.isZFormat then cZFormat else c)
  | .ok (x, f) :: r =>
    match collect r with
    | .error c => .error c
    | .ok (xs, g) => .ok (x :: xs, f ||| g)

/-- An operation on each element of its operands. -/
def mapElems (t : Nat) (f : List Nat → Res Nat) (xs : List Nat) : Res Nat :=
  let es := xs.map (elemsOf t)
  match collect ((List.range (perUnit t)).map (fun i => f (es.map (fun x => x.getD i 0)))) with
  | .ok (ys, g) => .ok (ofElems t ys, g)
  | .error c => .error c

/-- The lane and cause of a failed instruction: Z_FORMAT in any lane before FP_OVERFLOW in any (R227), lowest lane first. -/
def laneError {α : Type} (rs : List (Nat × Res α)) : Option (Nat × Nat) :=
  let errs := rs.filterMap (fun r => match r.2 with
    | .error c => some (r.1, c)
    | .ok _ => none)
  (errs.find? (fun x => x.2 == cZFormat)).or errs.head?

/-- The flags of all lanes. -/
def laneFlags {α : Type} (rs : List (Nat × Res α)) : Nat :=
  rs.foldl (fun f r => match r.2 with
    | .ok (_, g) => f ||| g
    | .error _ => f) 0

/-- The register writes of all lanes. -/
def laneWrites {α : Type} (put : Nat → α → List (Nat × Nat × Word)) (rs : List (Nat × Res α)) : List (Nat × Nat × Word) :=
  rs.flatMap (fun r => match r.2 with
    | .ok (x, _) => put r.1 x
    | .error _ => [])

/-- Lanes' results are written together, or the instruction traps and no lane writes (R6, R7, R10). -/
def deliverLanes {α : Type} (e : Env) (put : Nat → α → List (Nat × Nat × Word)) (rs : List (Nat × Res α)) (s : State) : Eff :=
  match laneError rs with
  | some (l, c) => .trap c (some l) 0 s
  | none => .done 1 (orExc e (laneFlags rs) (putVs e (laneWrites put rs) s))

/-- A typed vector instruction (R224 to R227): the TYPE it accepts, the registers under that TYPE, the sources' full/empty
bits, then the lanes' results. -/
def vecLanes (accept : Nat → Bool) (d : Nat) (srcs : List VSrc) (f : Env → Nat → List (Nat × Res Nat)) :
    Env → State → Eff :=
  vec fun e s =>
    let t := mrType e.ctx.mr
    let w := wideType t
    if !accept t then .trap cBadMode none 0 s
    else if w && (d % 2 != 0 || srcs.any (fun x => x.reg % 2 != 0)) then .trap cReserved none 0 s
    else if (unitRegs w d ++ srcs.flatMap (VSrc.vregs w)).any (fun r => e.team.regs ≤ r) then .trap cRegRange none 0 s
    else needs e (srcs.flatMap (VSrc.opnds w) ++ (unitRegs w d).map dstV) s
      (deliverLanes e (fun l x => unitWrites w d l x) (f e t) s)

/-- A typed vector instruction whose lanes each compute from their own operands. -/
def vecTyped (accept : Nat → Bool) (d : Nat) (srcs : List VSrc) (f : Rounding → Nat → List Nat → Res Nat) :
    Env → State → Eff :=
  vecLanes accept d srcs (fun e t =>
    e.active.map (fun l => (l, f (roundingOf e.ctx.mr) t (srcs.map (VSrc.read e (wideType t) l)))))

/-- The gate of a vector instruction: the vector registers named, one port cycle a quad, `wide` under a 64-bit TYPE. -/
def gVec (major minor : Nat) (named : List Nat) (wide : Nat := 2) : Gate :=
  { major := major, minor := minor, named := named, quadCost := 1, wide := wide }

/-- The vector registers an R-format word names, with B only where it is a vector register. -/
def rNamed (r : RArgs) : List Nat := [r.d.toNat, r.a.toNat] ++ (if r.x then [] else [r.b.toNat])
def rSrcs (r : RArgs) : List VSrc := [.v r.a.toNat r.qa, bSrc r.x r.b r.qb]

/-- The gate of an R-format vector instruction with a broadcast bit. -/
def gRVec (major minor : Nat) (r : RArgs) (wide : Nat := 2) : Gate :=
  { gVec major minor (rNamed r) wide with legacy := r.x }
def gUVec (major minor : Nat) (r : UArgs) (wide : Nat := 2) : Gate := gVec major minor [r.d.toNat, r.a.toNat] wide

/-- A uniform scalar instruction: it waits for its operands and writes scalars once (R224). -/
def scalarOp (srcs : List Opnd) (d : List Nat) (f : Ctx → List Word) : Env → State → Eff := fun e s =>
  needs e (srcs ++ d.map dstS) s
    (.done 1 (putCtx e (fun c => (d.zip (f e.ctx)).foldl (fun c p => c.writeS p.1 p.2) c) s))

end Sys2Proof.Machine
end

