-- ==== Sys2Proof/Machine/Float.lean ====
section
/-! DEFINITION. Machine/Float.lean: the floating-point instructions VFP (R236 to R238), VFMA (R239), and FDIV of a W16 team
(R29, R30). -/

namespace Sys2Proof.Machine

/-- F32, F64, F16 and BF16 (R225). -/
def okFloat (t : Nat) : Bool := 4 ≤ t && t ≤ 7
def okFdiv (t : Nat) : Bool := t == 4 || t == 6 || t == 7

/-- An element-wise float minor: its operands are read under R210. -/
def elemFloat (f : Rounding → Nat → List Val → Res Nat) (k : Rounding) (t : Nat) (xs : List Nat) : Res Nat :=
  mapElems t (fun es => f k t (es.map (floatVal t k.ftz))) xs

def fel (xs : List Val) (i : Nat) : Val := xs.getD i (.nan false)

/-- A minor that rounds one exact result (R236). -/
def rounded (f : Rounding → List Val → Option Val) (k : Rounding) (t : Nat) (xs : List Val) : Res Nat :=
  deliver k t xs (f k xs)

/-- The sign of an exact zero sum is − under RDN only. -/
def Rounding.rdn (k : Rounding) : Bool := k.rnd == 2

def faddVal (k : Rounding) (xs : List Val) : Option Val := (fel xs 0).add k.rdn (fel xs 1)
def fsubVal (k : Rounding) (xs : List Val) : Option Val := (fel xs 0).add k.rdn (fel xs 1).neg
def fmulVal (_ : Rounding) (xs : List Val) : Option Val := (fel xs 0).mul (fel xs 1)

/-- ±a·b ± c (R239). -/
def fmaVal (np nc : Bool) (k : Rounding) (xs : List Val) : Option Val :=
  ((fel xs 0).mul (fel xs 1)).bind (fun p =>
    (if np then p.neg else p).add k.rdn (if nc then (fel xs 2).neg else fel xs 2))

/-- FMIN and FMAX (R236): with one NaN the other operand; −0 below +0. -/
def fminVal (big : Bool) (a b : Val) : Val :=
  match a, b with
  | .nan _, .nan _ => .nan false
  | .nan _, y => y
  | x, .nan _ => x
  | x, y => if x.eq y then (if x.isNeg != big then x else y) else if x.lt y != big then x else y

/-- FMIN and FMAX are exact; a signalling NaN sets NV. -/
def fminmax (big : Bool) (k : Rounding) (t : Nat) (xs : List Val) : Res Nat :=
  match roundTo k t (fminVal big (fel xs 0) (fel xs 1)) with
  | .ok (x, _) => .ok (x, if xs.any Val.isSig then fNV else 0)
  | .error c => .error c

/-- FRND (R236). -/
def frndElem (k : Rounding) (t : Nat) (xs : List Val) : Res Nat :=
  match fel xs 0 with
  | .fin neg m e =>
    let (q, x) := roundInt k.rnd neg m e
    (roundTo k t (if 0 ≤ e then .fin neg m e else .fin neg q.natAbs 0)).flag (if x then fNX else 0)
  | v => deliver k t xs (some v)

/-- FDIV (R30): any NaN operand sets the invalid flag; a finite nonzero value divided by zero counts as an overflow. -/
def fdivElem (k : Rounding) (t : Nat) (xs : List Val) : Res Nat :=
  match fel xs 0, fel xs 1 with
  | .nan _, _ => deliver k t xs none
  | _, .nan _ => deliver k t xs none
  | .inf _, .inf _ => deliver k t xs none
  | .inf a, y => deliver k t xs (some (.inf (a != y.isNeg)))
  | .fin a _ _, .inf b => deliver k t xs (some (.fin (a != b) 0 0))
  | .fin a m e, .fin b m' e' =>
    if m' = 0 then (if m = 0 then deliver k t xs none else overflowResult k t (a != b))
    else if m = 0 then deliver k t xs (some (.fin (a != b) 0 0))
    else deliver k t xs (some (quotient (a != b) m e m' e'))

/-! ## FRCP, FRSQ, FSQRT, FEX2, FLG2 (R237, R238) -/

/-- The five minors, by their minor number. -/
def fnRcp : Nat := 7
def fnRsq : Nat := 8
def fnSqrt : Nat := 9
def fnEx2 : Nat := 10
def fnLg2 : Nat := 11

/-- The value of a function at a finite nonzero operand; none is an invalid operation. -/
def fnVal (fn : Nat) (neg : Bool) (m : Nat) (e : Int) : Option Val :=
  if fn = fnRcp then some (quotient neg 1 0 m e)
  else if fn = fnEx2 then some (exp2Val neg m e)
  else if neg then none
  else if fn = fnLg2 then some (log2Val m e)
  else if fn = fnSqrt then some (sqrtVal m e)
  else match quotient false 1 0 m e with
    | .fin _ q x => some (sqrtVal q x)
    | v => some v

/-- The operands whose result is exact (R238). -/
def fnExact (fn t : Nat) (neg : Bool) (m : Nat) (e : Int) : Bool :=
  let pow := m == 2 ^ m.log2
  if fn = fnRsq then pow && (e + m.log2) % 2 == 0
  else if fn = fnEx2 then
    let n := (roundInt 1 neg m e).1
    !(roundInt 1 neg m e).2 && 1 - (expBias t : Int) ≤ n
  else pow

/-- A distance of two finite values is at most b · 2^g. -/
def within (x y : Val) (b : Nat) (g : Int) : Bool :=
  match x, y with
  | .fin n m e, .fin n' m' e' =>
    let l := min g (min e e')
    (onGrid n m e l - onGrid n' m' e' l).natAbs ≤ b * 2 ^ (g - l).toNat
  | _, _ => false

/-- The spacing of the type at a value (R238), as a power of two. -/
def ulpExp (t : Nat) : Val → Int
  | .fin _ m e => max (e + m.log2 - fracBits t) (gridExp t)
  | _ => gridExp t

/-- Whether R238 admits y for the exact x; `near` says that the operand lies in [1/2, 2]. -/
def fnAdmits (fn t : Nat) (near : Bool) (x y : Val) : Bool :=
  within x y (if fn = fnEx2 || fn = fnLg2 then 2 else 1) (ulpExp t x) ||
    (fn == fnLg2 && near && within x y 1 (if t = tF64 then -51 else -22))

/-- The value a free code stands for: sign, significand, exponent, on the type's grid. -/
def codeVal (t c : Nat) : Val :=
  .fin (bit c 0) (c / 2 % 2 ^ (fracBits t + 1)) (gridExp t + (c / 2 ^ 64 % 4096 : Nat))

/-- Tiny: below the smallest normal. -/
def tinyVal (t : Nat) : Val → Bool
  | .fin _ m e => m == 0 || e + m.log2 < 1 - (expBias t : Int)
  | _ => false

/-- The fixed result of F32 or F64 at a finite nonzero operand: exact where R238 says so; FSQRT correctly rounded; else any
value within the bound, the choice being free. DESIGN CHOICE (log 133): a tiny value of the free choice sets UF beside NX (R211),
the correctly rounded value that stands in for one out of bound sets what RoundTo sets and NX. -/
def fnFinite (k : Rounding) (t fn raw : Nat) (neg : Bool) (m : Nat) (e : Int) : Res Nat :=
  let k' : Rounding := { k with rnd := 0 }
  match fnVal fn neg m e with
  | none => .ok (nanBits t, fNV)
  | some x =>
    if fn = fnSqrt then roundTo k t x
    else if fnExact fn t neg m e then roundTo k' t x
    else
      let code := raw + (if k.ftz then 2 ^ 64 else 0) + k.ovf * 2 ^ 65
      let y := codeVal t (Config.freeApprox (fn + 16 * t) code)
      let near := -1 ≤ e + m.log2 && (e + m.log2 ≤ 0 || (e + m.log2 == 1 && m == 2 ^ m.log2))
      if fnAdmits fn t near x y then (roundTo k' t y).flag (if tinyVal t y then fNX ||| fUF else fNX)
      else (roundTo k' t x).flag fNX

/-- The special operands of R237, then the finite ones; F16 and BF16 go through the F32 result (R238). DESIGN CHOICE (log 133): FEX2
of an integer "whose result is normal" is judged by that F32 result, so F16 at -24 to -15, subnormal but exact, sets no NX. -/
def fnElem (fn : Nat) (k : Rounding) (t raw : Nat) : Res Nat :=
  let nan : Res Nat := .ok (nanBits t, fNV)
  match floatVal t k.ftz raw with
  | .nan sig => .ok (nanBits t, if sig then fNV else 0)
  | .inf neg =>
    if fn = fnRcp then .ok (zeroBits t neg, 0)
    else if fn = fnEx2 then .ok (if neg then 0 else infBits t false, 0)
    else if neg then nan
    else .ok (if fn = fnRsq then 0 else infBits t false, 0)
  | .fin neg m e =>
    if m = 0 then
      (if fn = fnSqrt then .ok (zeroBits t neg, 0)
      else if fn = fnEx2 then roundTo k t (intVal 1)
      else overflowResult k t (neg || fn == fnLg2))
    else if fn = fnSqrt || t = tF32 || t = tF64 then fnFinite k t fn raw neg m e
    else
      let k' : Rounding := { k with rnd := 0 }
      match roundTo k' tF32 (.fin neg m e) with
      | .error c => .error c
      | .ok (wide, _) =>
        match fnFinite k tF32 fn wide neg m e with
        | .error c => .error c
        | .ok (x, f) => (convert k' t (floatVal tF32 k.ftz x)).flag f

/-- One of the five minors on every element. -/
def vfpFn (fn : Nat) (r : UArgs) : Env → State → Eff :=
  vecTyped okFloat r.d.toNat [.v r.a.toNat r.qa] (fun k t xs => mapElems t (fun es => fnElem fn k t (es.getD 0 0)) xs)

/-! ## Meanings -/

def vfp2 (f : Rounding → Nat → List Val → Res Nat) (r : RArgs) : Env → State → Eff :=
  vecTyped okFloat r.d.toNat (rSrcs r) (elemFloat f)

/-- FABS and FNEG change the sign bit and nothing else, FTZ ignored. -/
def vfpSign (f : Nat → Nat → Nat) (r : UArgs) : Env → State → Eff :=
  vecTyped okFloat r.d.toNat [.v r.a.toNat r.qa] (fun _ t xs =>
    mapElems t (fun es => .ok (f (2 ^ (elemWidth t - 1)) (es.getD 0 0), 0)) xs)

/-- VFP minor 0 (R236). -/
def execFadd (r : RArgs) (s : State) : Host.Outcome State Fault Refusal := run (gRVec 0x18 0 r) (vfp2 (rounded faddVal) r) s

/-- VFP minor 1 (R236). -/
def execFsub (r : RArgs) (s : State) : Host.Outcome State Fault Refusal := run (gRVec 0x18 1 r) (vfp2 (rounded fsubVal) r) s

/-- VFP minor 2 (R236). -/
def execFmul (r : RArgs) (s : State) : Host.Outcome State Fault Refusal := run (gRVec 0x18 2 r 4) (vfp2 (rounded fmulVal) r) s

/-- VFP minor 3 (R236). -/
def execFmin (r : RArgs) (s : State) : Host.Outcome State Fault Refusal := run (gRVec 0x18 3 r) (vfp2 (fminmax false) r) s

/-- VFP minor 4 (R236). -/
def execFmax (r : RArgs) (s : State) : Host.Outcome State Fault Refusal := run (gRVec 0x18 4 r) (vfp2 (fminmax true) r) s

/-- VFP minor 5 (R236). -/
def execFabs (r : UArgs) (s : State) : Host.Outcome State Fault Refusal := run (gUVec 0x18 5 r) (vfpSign (fun h x => x % h) r) s

/-- VFP minor 6 (R236). -/
def execFneg (r : UArgs) (s : State) : Host.Outcome State Fault Refusal := run (gUVec 0x18 6 r) (vfpSign (fun h x => (x + h) % (2 * h)) r) s

/-- VFP minor 7 (R237, R238). -/
def execFrcp (r : UArgs) (s : State) : Host.Outcome State Fault Refusal :=
  run { gUVec 0x18 7 r 1 with quadCost := 4 } (vfpFn fnRcp r) s

/-- VFP minor 8 (R237, R238). -/
def execFrsq (r : UArgs) (s : State) : Host.Outcome State Fault Refusal :=
  run { gUVec 0x18 8 r 1 with quadCost := 4 } (vfpFn fnRsq r) s

/-- VFP minor 9 (R237, R238). -/
def execFsqrt (r : UArgs) (s : State) : Host.Outcome State Fault Refusal :=
  run { gUVec 0x18 9 r 1 with quadCost := 4 } (vfpFn fnSqrt r) s

/-- VFP minor 10 (R237, R238). -/
def execFex2 (r : UArgs) (s : State) : Host.Outcome State Fault Refusal :=
  run { gUVec 0x18 10 r 1 with quadCost := 4 } (vfpFn fnEx2 r) s

/-- VFP minor 11 (R237, R238). -/
def execFlg2 (r : UArgs) (s : State) : Host.Outcome State Fault Refusal :=
  run { gUVec 0x18 11 r 1 with quadCost := 4 } (vfpFn fnLg2 r) s

/-- FRND: VFP minor 12 (R236). -/
def execFrnd (r : UArgs) (s : State) : Host.Outcome State Fault Refusal :=
  run (gUVec 0x18 12 r) (vecTyped okFloat r.d.toNat [.v r.a.toNat r.qa] (elemFloat frndElem)) s

/-- FDIV: VFP minor 13 of a W16 team (R29, R30). -/
def execFdiv (r : RArgs) (s : State) : Host.Outcome State Fault Refusal :=
  run { gRVec 0x18 13 r with quadCost := 6 } (vecTyped okFdiv r.d.toNat (rSrcs r) (elemFloat fdivElem)) s

/-- VFMA minor 0 (R239). -/
def execFma (r : QArgs) (s : State) : Host.Outcome State Fault Refusal :=
  run (gVec 0x19 0 [r.d.toNat, r.a.toNat, r.b.toNat, r.c.toNat] 4)
    (vecTyped okFloat r.d.toNat [.v r.a.toNat false, .v r.b.toNat false, .v r.c.toNat false]
      (elemFloat (rounded (fmaVal false false)))) s

/-- VFMA minor 1 (R239). -/
def execFms (r : QArgs) (s : State) : Host.Outcome State Fault Refusal :=
  run (gVec 0x19 1 [r.d.toNat, r.a.toNat, r.b.toNat, r.c.toNat] 4)
    (vecTyped okFloat r.d.toNat [.v r.a.toNat false, .v r.b.toNat false, .v r.c.toNat false]
      (elemFloat (rounded (fmaVal false true)))) s

/-- VFMA minor 2 (R239). -/
def execFnma (r : QArgs) (s : State) : Host.Outcome State Fault Refusal :=
  run (gVec 0x19 2 [r.d.toNat, r.a.toNat, r.b.toNat, r.c.toNat] 4)
    (vecTyped okFloat r.d.toNat [.v r.a.toNat false, .v r.b.toNat false, .v r.c.toNat false]
      (elemFloat (rounded (fmaVal true false)))) s

/-- VFMA minor 3 (R239). -/
def execFnms (r : QArgs) (s : State) : Host.Outcome State Fault Refusal :=
  run (gVec 0x19 3 [r.d.toNat, r.a.toNat, r.b.toNat, r.c.toNat] 4)
    (vecTyped okFloat r.d.toNat [.v r.a.toNat false, .v r.b.toNat false, .v r.c.toNat false]
      (elemFloat (rounded (fmaVal true true)))) s

end Sys2Proof.Machine
end

