-- ==== Sys2Proof/Machine/Matrix.lean ====
section
/-! DEFINITION. Machine/Matrix.lean: the matrix engine (R330 to R340): MLOOP, the sequencer, the exact sum of a K-step with its one
rounding (R222), retirement and MWAIT. -/

namespace Sys2Proof.Machine

/-! ## The descriptor (R331, R332) -/

def mcA (d : List Word) : Nat := mcWord d 0
def mcB (d : List Word) : Nat := mcWord d 1
def mcAstr (d : List Word) : Nat := bits (mcWord d 2) 15 0
def mcBstr (d : List Word) : Nat := bits (mcWord d 2) 31 16
def mcAinc (d : List Word) : Nat := bits (mcWord d 3) 15 0
def mcBinc (d : List Word) : Nat := bits (mcWord d 3) 31 16
def mcK (d : List Word) : Nat := bits (mcWord d 5) 15 0
def mcType (d : List Word) : Nat := bits (mcWord d 6) 3 0
def mcInit (d : List Word) : Bool := bit (mcWord d 6) 6

def mcReserved (d : List Word) : Bool :=
  bits (mcWord d 4) 31 24 != 0 || bits (mcWord d 5) 31 16 != 0 || bits (mcWord d 6) 31 7 != 0 || bit (mcWord d 6) 4 ||
    mcWord d 7 != 0

/-- K-step of a type; 0 for a refused one (R332). -/
def kStep (t : Nat) (modular : Bool) : Nat :=
  match t, modular with
  | 4, false => 2
  | 6, false => 8
  | 7, false => 8
  | 8, false => 16
  | 9, false => 16
  | 13, false => 16
  | 12, false => 16
  | 11, false => 32
  | 10, false => 64
  | 3, true => 1
  | _, _ => 0
def mcKs (d : List Word) : Nat := kStep (mcType d) (mcModular d)
def elemBytes (t : Nat) : Nat := elemWidth t / 8

/-- One operand: base, stride and K-step advance. -/
structure MOperand where
  base : Nat
  str : Nat
  inc : Nat
  deriving DecidableEq, Repr

def mcOpA (d : List Word) : MOperand := { base := mcA d, str := mcAstr d, inc := mcAinc d }
def mcOpB (d : List Word) : MOperand := { base := mcB d, str := mcBstr d, inc := mcBinc d }

/-- Offset of element e of step s in a row or column of a wide or N64 type (R333). -/
def MOperand.elemAt (o : MOperand) (esize t s e : Nat) : Nat := o.base + t * o.str + s * o.inc + e * esize
/-- Offset of a Zalnen group's block header, and of the group (R333). -/
def MOperand.header (o : MOperand) (t ng n : Nat) : Nat := o.base + t * o.str + 64 * (n / ng)
def MOperand.groupAt (o : MOperand) (t ng size n : Nat) : Nat := o.header t ng n + 2 + size * (n % ng)

/-- The byte after the last operand byte of R333, for `rows` rows or columns; the first is at the base. -/
def MOperand.endAt (o : MOperand) (ty rows ksteps ks : Nat) : Nat :=
  if zType ty then
    o.groupAt (rows - 1) (zGroups ty) (zGroupSize ty) ((ksteps - 1) * o.inc + (ks - 1) / 16) + zGroupSize ty
  else o.elemAt (elemBytes ty) (rows - 1) (ksteps - 1) (ks - 1) + elemBytes ty

/-- The issuing core's part of the team's scratchpad, as offsets. -/
def spadPart (e : Env) : Nat × Nat :=
  if e.core = e.lower then (0, e.team.scratch) else (e.team.scratch, 2 * e.team.scratch)

def operandOutside (e : Env) (d : List Word) (o : MOperand) (tiles : Nat) : Bool :=
  let part := spadPart e
  o.base < part.1 || part.2 < o.endAt (mcType d) (16 * tiles) (mcK d) (mcKs d)

/-- The misalignment test of R334. -/
def operandMisaligned (d : List Word) (o : MOperand) : Bool :=
  if zType (mcType d) then o.base % 64 != 0 || o.str % 64 != 0
  else
    let n := max (elemBytes (mcType d)) 4
    o.base % n != 0 || o.str % n != 0 || o.inc % n != 0

/-! ## The sequencer (R335) -/

/-- The unretired commands of a team. -/
def findCmd (t : Team) (id : Nat) : Option MCmd := t.cmds.find? (fun c => c.id == id)

/-- The unretired commands that predecessor ids name: 0xFFFF and an id of none impose nothing (R335). -/
def namedCmds (t : Team) (ids : List Nat) : List Nat :=
  ids.filterMap (fun p => if p = 0xFFFF then none else (findCmd t p).map (·.seq))

/-- Whether a command may start. -/
def mayStart (s : State) (lower slot : Nat) (c : MCmd) : Bool :=
  !c.started && c.preds.all (fun p => (s.team lower slot).cmds.all (fun x => x.seq != p)) &&
    !earlierOn s c.core c.seq (span (mcAccBase c.desc) (mcBanks c.desc))

/-- The commands of a core that may start, oldest first. -/
def scanCore (core : Nat) (s : State) : State :=
  let ready := s.teams.flatMap (fun t => (t.2.cmds.filter (fun c =>
    c.core == core && mayStart s (t.1 / 16) (t.1 % 16) c)).map (fun c => (c.seq, t.1, c.id)))
  s.due ((ready.mergeSort (fun a b => a.1 ≤ b.1)).map (fun r =>
    ({ instr := .commandStart (r.2.1 / 16) (r.2.1 % 16) r.2.2 } : Due)))

/-- A command's record changes. -/
def setCmd (lower slot id : Nat) (f : MCmd → MCmd) (s : State) : State :=
  let t := s.team lower slot
  s.setTeam lower slot { t with cmds := t.cmds.map (fun c => if c.id == id then f c else c) }

/-- What a command does next. A tile step takes its cycles (R332) while groups go on issuing: the model issues one instruction
at a time, so a cycle of the engine is one issue of each port. -/
def cmdDue (now lower slot : Nat) (c : MCmd) : Due :=
  if c.fail = 0 && c.steps < mcMt c.desc * mcNt c.desc * mcK c.desc then
    { req := some { f := 0, args := [now + portCount c.core * (if mcModular c.desc then 2 else 1)] },
      instr := .tileStep lower slot c.id }
  else { instr := .commandRetire lower slot c.id }

/-! ## MLOOP (R334) -/

/-- The cause of a descriptor, in the order of R334 up to the wait for room. -/
def mloopCause (s : State) (e : Env) (id pr : Nat) (d : List Word) : Option Nat :=
  let bad := bits id 31 16 != 0 || mcReserved d
  if bad then some cReserved
  else if mcKs d = 0 || mcMt d = 0 || mcNt d = 0 || 256 < mcAccBase d + mcBanks d then some cMatrixDesc
  else if mcModular d && mcAccBase d % 2 = 1 then some cMatrixDesc
  else if mcModular d && e.ctx.qmod = 0 then some cModUnset
  else if id = 0xFFFF || (findCmd e.team id).isSome || bits pr 15 0 = id || bits pr 31 16 = id then some cCmdId
  else if 0 < mcK d && (operandOutside e d (mcOpA d) (mcMt d) || operandOutside e d (mcOpB d) (mcNt d)) then
    some cProtection
  else if 0 < mcK d && (operandMisaligned d (mcOpA d) || operandMisaligned d (mcOpB d)) then some cMisaligned
  else if !ownsBanks s e.core (teamKey e.lower e.slot) (span (mcAccBase d) (mcBanks d)) then some cAccUnalloc
  else none

/-- MLOOP. -/
def mloopBody (r : MloopArgs) : Env → State → Eff := engine fun e s =>
  let a := 8 * r.a8.toNat
  needs e (srcS r.d.toNat :: (span a 8).map (fun x => srcS x r.qa) ++ [srcS r.b.toNat r.qb]) s (
    let id := (e.ctx.readS r.d.toNat).toNat
    let pr := (e.ctx.readS r.b.toNat).toNat
    let d := (span a 8).map e.ctx.readS
    match mloopCause s e id pr d with
    | some c => .trap c none 0 s
    | none =>
      if 32 ≤ (coreCmds s e.core).length then .wait s
      else
        let c : MCmd := { seq := s.seq, id := id, group := e.gi, core := e.core, desc := d,
                          preds := namedCmds e.team [bits pr 15 0, bits pr 31 16], mr := e.ctx.mr,
                          q := if mcModular d then e.ctx.qmod else 0 }
        .done 1 (scanCore e.core (putTeam e (fun t => { t with cmds := t.cmds ++ [c] }) { s with seq := s.seq + 1 })))

def execMloop (r : MloopArgs) (s : State) : Host.Outcome State Fault Refusal := run { major := 0x32 } (mloopBody r) s

/-- COMMAND_START (R335). -/
def commandStart (lower slot id : Nat) (s : State) : State :=
  match findCmd (s.team lower slot) id with
  | none => s
  | some c =>
    if mayStart s lower slot c then
      (setCmd lower slot id (fun c => { c with started := true }) s).due [cmdDue s.time lower slot c]
    else s

def execCommandStart (core slot id : Nat) (s : State) : Host.Outcome State Fault Refusal :=
  event (commandStart core slot id) s

/-! ## A K-step (R222, R333, R336) -/

/-- `n` bytes of the team's scratchpad from an offset. -/
def spadBytes (s : State) (lower : Nat) (t : Team) (off n : Nat) : List Byte :=
  (span off n).map (fun o => homeByte s (spadHome lower t o))

/-- The rows of A, or the columns of B, of all tiles as they stand in the scratchpad. -/
def operandRows (s : State) (lower : Nat) (tm : Team) (d : List Word) (o : MOperand) (tiles : Nat) : List (List Byte) :=
  (List.range (16 * tiles)).map (fun t =>
    spadBytes s lower tm (o.base + t * o.str) (o.endAt (mcType d) 1 (mcK d) (mcKs d) - o.base))

/-- The operands of a command: each byte is read once, when the first step runs (R337). -/
def operands (s : State) (lower slot : Nat) (c : MCmd) : List (List Byte) × List (List Byte) :=
  let tm := s.team lower slot
  c.ops.getD (operandRows s lower tm c.desc (mcOpA c.desc) (mcMt c.desc), operandRows s lower tm c.desc (mcOpB c.desc) (mcNt c.desc))

/-- `n` bytes of a row from an offset. -/
def rowBytes (row : List Byte) (off n : Nat) : List Byte := (row.drop off).take n

/-- The elements of one row or column for a step, as bit patterns; Z_FORMAT where a block's FMT differs (R218). -/
def stepElems (d : List Word) (inc st : Nat) (row : List Byte) : Except Nat (List Nat) :=
  let ty := mcType d
  let o : MOperand := { base := 0, str := 0, inc := inc }
  if zType ty then
    ((List.range (mcKs d / 16)).mapM (fun k =>
      let n := st * inc + k
      let hd := rowBytes row (o.header 0 (zGroups ty) n) 2
      if (hd.getD 0 0).toNat != zFmt ty then Except.error cZFormat
      else
        let g := rowBytes row (o.groupAt 0 (zGroups ty) (zGroupSize ty) n) (zGroupSize ty)
        Except.ok ((List.range 16).map (zWord ty (hd.getD 1 0).toNat g)))).map List.flatten
  else
    .ok ((List.range (mcKs d)).map (fun e => leNat (rowBytes row (o.elemAt (elemBytes ty) 0 st e) (elemBytes ty))))

/-- The value of an element pattern; operands are never flushed. -/
def stepVal (ty x : Nat) : Val :=
  if zType ty then zVal (zBits ty) (bits x 31 24) (bits x 23 16) (bit x 15) (bits x 7 0) else elemVal ty false x

/-- The exact sum of a step's products and its flags: an invalid product or sum is NaN and sets NV, as does a signalling
operand (R209, R222). -/
def stepSum (xs ys : List Val) : Val × Nat :=
  let ps := (xs.zip ys).map (fun p => p.1.mul p.2)
  let sig := if (xs ++ ys).any Val.isSig then fNV else 0
  if (xs ++ ys).any Val.isNan then (.nan false, sig ||| (if ps.any (·.isNone) then fNV else 0))
  else if ps.any (·.isNone) then (.nan false, fNV)
  else match ps.filterMap id with
    | [] => (.fin false 0 0, 0)
    | v :: vs => match vs.foldl (fun a b => a.bind (fun x => x.add false b)) (some v) with
      | none => (.nan false, fNV)
      | some x => (x, 0)

/-- The new F32 element (R336). -/
def floatStep (mr : Word) (old : Word) (xs ys : List Val) : Res Nat :=
  let (sum, fl) := stepSum xs ys
  let k : Rounding := { rnd := 0, ovf := mrOvf mr, ftz := mrFtz mr }
  if sum.isNan then .ok (0x7FC00000, fl)
  else (deliver k tF32 [floatVal tF32 false old.toNat] (Val.add false (floatVal tF32 false old.toNat) sum)).flag fl

/-- The integer sum of a step's products. -/
def intSum (ty : Nat) (xs ys : List Nat) : Int :=
  ((xs.zip ys).map (fun p => signed (elemWidth ty) p.1 * signed (elemWidth ty) p.2)).foldl (· + ·) 0

/-- The new words of element (i, j) of a tile at a bank: one, or two in modular mode. -/
def stepElement (c : MCmd) (core : Core) (bank : Nat) (first : Bool) (xs ys : List Nat) (i j : Nat) : Res (List Nat) :=
  let ty := mcType c.desc
  let old : Word := if first then 0 else accRead core bank i j
  if mcModular c.desc then
    let hi : Word := if first then 0 else accRead core (bank + 1) i j
    let sum := ((xs.zip ys).map (fun p => p.1 * p.2)).foldl (· + ·) 0
    let v := (old.toNat + hi.toNat * 2 ^ 32 + sum) % c.q
    .ok ([v % 2 ^ 32, v / 2 ^ 32], 0)
  else if ty = 13 then .ok ([wrap 32 ((old.toNat : Int) + intSum ty xs ys)], 0)
  else match floatStep c.mr old (xs.map (stepVal ty)) (ys.map (stepVal ty)) with
    | .ok (v, f) => .ok ([v], f)
    | .error e => .error e

/-- The new elements of a tile step: (i, j, words), and the flags. -/
def stepTile (c : MCmd) (core : Core) (bank : Nat) (first : Bool) (as bs : List (List Nat)) : Res (List (Nat × Nat × List Nat)) :=
  (List.range 256).foldl (fun r k => match r with
    | .error e => .error e
    | .ok (l, f) =>
      match stepElement c core bank first (as.getD (k / 16) []) (bs.getD (k % 16) []) (k / 16) (k % 16) with
      | .error e => .error e
      | .ok (w, f') => .ok ((k / 16, k % 16, w) :: l, f ||| f')) (.ok ([], 0))

/-- The words of a tile enter its bank or banks. -/
def putTile (bank : Nat) (xs : List (Nat × Nat × List Nat)) (c : Core) : Core :=
  { c with acc := xs.foldl (fun t x => x.2.2.zipIdx.foldl (fun t w =>
      tput t (accKey (bank + w.2) x.1 x.2.1) (word w.1)) t) c.acc }

/-- The outcome of the command's next step: the tile's new elements and flags, or the failing cause (R338). -/
def nextStep (s : State) (lower slot : Nat) (c : MCmd) : Nat × Res (List (Nat × Nat × List Nat)) :=
  let d := c.desc
  let tile := c.steps / mcK d
  let st := c.steps % mcK d
  let bank := mcAccBase d + (if mcModular d then 2 else 1) * tile
  let ops := operands s lower slot c
  let rows : List (List Byte) → Nat → Nat → Except Nat (List (List Nat)) := fun rs inc t =>
    (List.range 16).mapM (fun i => stepElems d inc st (rs.getD (16 * t + i) []))
  (bank, match rows ops.1 (mcOpA d).inc (tile / mcNt d), rows ops.2 (mcOpB d).inc (tile % mcNt d) with
    | .ok as, .ok bs => stepTile c (s.core c.core) bank (st = 0 && mcInit d) as bs
    | .error e, _ => .error e
    | _, .error e => .error e)

/-- TILE_STEP (R336): one step of one tile; a failed step writes nothing and ends the command. -/
def tileStep (lower slot id : Nat) (s : State) : State :=
  match findCmd (s.team lower slot) id with
  | none => s
  | some c =>
    if !c.started || c.fail != 0 || mcMt c.desc * mcNt c.desc * mcK c.desc ≤ c.steps then s
    else match nextStep s lower slot c with
      | (_, .error e) => (setCmd lower slot id (fun c => { c with fail := e }) s).due [cmdDue 0 lower slot { c with fail := e }]
      | (bank, .ok (xs, f)) =>
        let c' : MCmd := { c with steps := c.steps + 1, flags := c.flags ||| f, ops := some (operands s lower slot c) }
        let s := countEvent (s.team lower slot).f 0x02 1 s
        (setCmd lower slot id (fun _ => c') (putCore c.core (putTile bank xs) s)).due [cmdDue s.time lower slot c']

def execTileStep (core slot id : Nat) (s : State) : Host.Outcome State Fault Refusal := event (tileStep core slot id) s

/-- COMMAND_RETIRE (R336, R338): the flags go into EXC, a failure into the group's empty slot; what waited may go on. -/
def commandRetire (lower slot id : Nat) (s : State) : State :=
  match findCmd (s.team lower slot) id with
  | none => s
  | some c =>
    if !c.started then s
    else
      let g := s.group lower slot c.group
      let s := s.setGroup lower slot c.group
        { g with ctx := { g.ctx with exc := g.ctx.exc ||| word c.flags },
                 matrixFail := if g.matrixFail = 0 then c.fail else g.matrixFail }
      let t := s.team lower slot
      let s := s.setTeam lower slot { t with cmds := t.cmds.filter (fun x => x.id != id) }
      (teamCores lower t).foldl (fun s k => scanCore k s) (serveDrains c.core s)

def execCommandRetire (core slot id : Nat) (s : State) : Host.Outcome State Fault Refusal :=
  event (commandRetire core slot id) s

/-! ## MWAIT (R339) -/

def mwaitBody (r : SrcArgs) (e : Env) (s : State) : Eff :=
  needs e [srcS r.a.toNat r.qa] s (
    let x := (e.ctx.readS r.a.toNat).toNat
    if bits x 31 16 != 0 then .trap cReserved none 0 s
    else if (if x = 0xFFFF then e.team.cmds.any (fun c => c.group == e.gi) else (findCmd e.team x).isSome) then .wait s
    else if e.group.matrixFail != 0 then
      .trap e.group.matrixFail none 0 (putGroup e (fun g => { g with matrixFail := 0 }) s)
    else .done 1 s)

def execMwait (r : SrcArgs) (s : State) : Host.Outcome State Fault Refusal := run { major := 0x33 } (mwaitBody r) s

end Sys2Proof.Machine
end

