-- ==== Sys2Proof/Machine/BankUnit.lean ====
section
/-! DEFINITION. Machine/BankUnit.lean: the bank units (R347 to R357, R368): the F, A and W slots of a microword, blocks verified
whole, the CTL actions, correction by the stack controller and the switching of contexts. -/

namespace Sys2Proof.Machine

/-! ## Units and columns -/

def unitFn (k : Nat) : Nat := k / 8192
def unitBank (k : Nat) : Nat := k % 8192

/-- The home of a column of a logical bank; none where the column lies outside the bank (R347). -/
def colHome (s : State) (k col : Nat) : Option Nat := bankHome s (unitFn k) (unitBank k) (col / 64) (col % 64 * 32)

/-- Whether a column may be accessed: in the bank, and in a declared row (R352). -/
def colAllowed (s : State) (k : Nat) (u : Unit) (col : Nat) : Bool :=
  u.rowFirst ≤ col / 64 && col / 64 < u.rowFirst + u.rowCount && (colHome s k col).isSome

/-- An o-register's bytes, and an o-register set. -/
def oReg (u : Unit) (r : Nat) : List Byte := (List.range 32).map (fun i => tget u.o 0 (32 * r + i))
def setO (r : Nat) (bs : List Byte) (u : Unit) : Unit :=
  { u with o := bs.zipIdx.foldl (fun t b => tput t (32 * r + b.2) b.1) u.o }

/-- How a word ends before its end: a fault (cause and column), a fault of a read that took a column cycle of its own, a fault of the
merge of a waiting write (R355), or a stall while a block is corrected (R356). -/
inductive Halt where
  | fault (cause col : Nat)
  | read (cause col : Nat)
  | merge (cause col : Nat)
  | stall (pa : Nat)
  deriving DecidableEq, Repr

/-- A part of a word: the unit changed, or a halt; the state either way. -/
abbrev Part := Unit → State → Try Halt Unit

/-! ## Blocks (R355, R356) -/

/-- A column as it stands in the stack. -/
def storedColumn (s : State) (k col : Nat) : List Byte :=
  match colHome s k col with
  | some h => readBytes s.mem h 32
  | none => List.replicate 32 0

/-- A column as the unit reads it: its own waiting write, else the block it has opened, else the stack (R355, R365). -/
def columnBytes (s : State) (u : Unit) (k col : Nat) : List Byte :=
  if u.pendW.any (fun w => w.1 == col) then (u.pendW.map (·.2)).getD []
  else if u.openCol.any (fun o => o.2 / 2 == col / 2) then (u.openBlock.drop (32 * (col % 2))).take 32
  else storedColumn s k col

/-- Every access of a unit: its row block is bound to the bank's function, or the unit faults and the function enters ERROR
(R356). -/
def bindCheck (k col : Nat) : Part := fun u s =>
  let c0 := col / 2 * 2
  match colHome s k c0 with
  | none => (.error (.fault cBankRange c0), s)
  | some h =>
    if boundTo s (hAddr h) != some (unitFn k) then
      (.error (.fault cSliceViolation c0), s.due [{ req := some { f := unitFn k }, instr := .parityError }])
    else (.ok u, s)

/-- The check of a whole block: the binding of its row block, the poison mark, the symbols, the tag (R356). -/
def verifyBlock (k col : Nat) : Part := fun u s =>
  (bindCheck k col u s).bind (fun u s =>
    let pa := ((colHome s k (col / 2 * 2)).map hAddr).getD 0
    if !isPoisoned s pa && codeState (errorsAt s pa) = .correctable then (.error (.stall pa), s)
    else match checkBlock pa 1 s with
      | (none, s) => (.ok u, s)
      | (some c, s) => (.error (.fault (if c = cPoison then cBankUe else c) (col / 2 * 2)), s))

/-- A check whose read takes a column cycle of its own (R355). -/
def Halt.ofRead : Halt → Halt
  | .fault c a => .read c a
  | x => x
def verifyRead (k col : Nat) : Part := fun u s =>
  match verifyBlock k col u s with
  | (.ok u, s) => (.ok { u with cycles := u.cycles + 1 }, s)
  | (.error x, s) => (.error x.ofRead, s)

/-- A completion read of the block that an RDC opened, if one is open: its register is verified (R355). -/
def completeRead (k : Nat) : Part := fun u s =>
  match u.openCol with
  | none => (.ok u, s)
  | some (r, col) =>
    (verifyRead k col u s).bind (fun u s =>
      (.ok { u with openCol := none, unver := u.unver.filter (· != r) }, s))

/-- A whole block written: both columns at once, and the unit's own open block with them (R355, R365). -/
def writeBlock (k col : Nat) (bs : List Byte) : Part := fun u s =>
  (.ok (if u.openCol.any (fun o => o.2 / 2 == col / 2) then { u with openBlock := bs } else u),
    match colHome s k (col / 2 * 2) with
    | some h => homeWrite 0 ((span h bs.length).zip bs) s
    | none => s)

/-- The merge of a waiting column with the block's other column, and the block write (R355). -/
def flushWrite (k : Nat) : Part := fun u s =>
  match u.pendW with
  | none => (.ok u, s)
  | some (col, bs) =>
    let u' : Unit := { u with pendW := none, cycles := u.cycles + 1 }
    match verifyBlock k col u s with
    | (.ok _, s) =>
      let other := storedColumn s k (col / 2 * 2 + (1 - col % 2))
      writeBlock k col (if col % 2 = 0 then bs ++ other else other ++ bs) u' s
    | (.error (.fault c a), s) => (.error (.merge c a), s)
    | (.error x, s) => (.error x, s)

/-! ## The slots -/

def Unit.apOf (u : Unit) (a : BitVec 2) : Nat := tget u.ap 0 a.toNat

/-- ap := (ap + str) mod 2^21. -/
def postStep (u : Unit) (a : BitVec 2) (p : Bool) : Unit :=
  if p then { u with ap := tput u.ap a.toNat (wrap 21 ((u.apOf a : Int) + tget u.str 0 a.toNat)) } else u

/-- The F slot (R352). -/
def slotF (k : Nat) (m : Micro) : Part := fun u s =>
  let col := u.apOf m.fap + m.foff.toNat
  let r := m.fd.toNat
  match m.fop.toNat with
  | 1 =>
    match u.openCol with
    | some (r0, c0) =>
      if c0 / 2 = col / 2 && c0 != col then
        (if !colAllowed s k u col then (.error (.fault cBankRange col), s)
        else (verifyBlock k col u s).bind (fun u s =>
          let bs := columnBytes s u k col
          (.ok (postStep (setO r bs { u with openCol := none, unver := u.unver.filter (fun x => x != r0 && x != r) })
            m.fap m.fpost), s)))
      else (completeRead k u s).bind (fun u s => openRead col r u s)
    | none => openRead col r u s
  | 2 =>
    (completeRead k u s).bind (fun u s =>
      if col % 2 = 1 || !colAllowed s k u col then (.error (.fault cBankRange col), s)
      else (verifyRead k col u s).bind (fun u s =>
        let a := columnBytes s u k col
        let b := columnBytes s u k (col + 1)
        (.ok (postStep (setO (r + 1) b (setO r a
          { u with unver := u.unver.filter (fun x => x != r && x != r + 1) })) m.fap m.fpost), s)))
  | _ => completeRead k u s
where
  /-- An RDC that opens a block. -/
  openRead (col r : Nat) (u : Unit) (s : State) : Try Halt Unit :=
    if !colAllowed s k u col then (.error (.fault cBankRange col), s)
    else (bindCheck k col u s).bind (fun u s =>
      let c0 := col / 2 * 2
      let bs := columnBytes s u k col
      (.ok (postStep (setO r bs { u with
        openCol := some (r, col), openBlock := columnBytes s u k c0 ++ columnBytes s u k (c0 + 1),
        unver := u.unver.filter (· != r) ++ [r] }) m.fap m.fpost), s))

/-- A slot that reads an unverified register waits for the completion read. -/
def beforeUse (k : Nat) (regs : List Nat) : Part := fun u s =>
  if regs.any u.unver.contains then completeRead k u s else (.ok u, s)

/-- Elements of an o-register: `w` bytes each, from `first`, sixteen of them. -/
def oElems (u : Unit) (r w first : Nat) : List Nat :=
  let bs := oReg u r
  (List.range 16).map (fun i => leNat ((bs.drop (w * (first + i))).take w))

/-- The rounding of a unit (R223). -/
def unitRounding : Rounding := { rnd := 0, ovf := 1, ftz := false }

/-- An accumulator rounded: the F32 word, and whether it overflowed. -/
def accRound (v : Option Val) : Word × Bool :=
  match v with
  | none => (0x7FC00000, false)
  | some x => match roundTo unitRounding tF32 x with
    | .ok (w, f) => (word w, f &&& fOF != 0)
    | .error _ => (0x7FC00000, false)

def accF (u : Unit) (i : Nat) : Val := floatVal tF32 false (tget u.m 0 i).toNat
def setM (i : Nat) (w : Word × Bool) (u : Unit) : Unit := { u with m := tput u.m i w.1, ovf := u.ovf || w.2 }

/-- An accumulator plus the exact sum of products. -/
def accAdd (u : Unit) (i : Nat) (xs ys : List Val) : Unit :=
  let sum := (stepSum xs ys).1
  setM i (if sum.isNan then (0x7FC00000, false) else accRound (Val.add false (accF u i) sum)) u

def accAddI (u : Unit) (i : Nat) (xs ys : List Nat) : Unit :=
  setM i (word (wrap 32 (((tget u.m 0 i).toNat : Int) + intSum 13 xs ys)), false) u

/-- The products of a MAC by its MODE (R353). -/
def macWith {α : Type} (m : Micro) (add : Unit → Nat → List α → List α → Unit) (xs ys : List α) (u : Unit) : Unit :=
  match m.mode.toNat with
  | 0 => (List.range 16).foldl (fun u i => add u i ((xs.drop i).take 1) ((ys.drop i).take 1)) u
  | 1 => add u m.idx.toNat xs ys
  | _ => (List.range 16).foldl (fun u i => add u i ((xs.drop i).take 1) ((ys.drop m.idx.toNat).take 1)) u

/-- The o-registers the A slot reads. -/
def aRegs (m : Micro) : List Nat :=
  match m.aop.toNat with
  | 1 => [m.ax.toNat, m.ay.toNat]
  | 2 => [m.ax.toNat, m.ay.toNat]
  | 3 => [m.ax.toNat, m.ax.toNat + 1, m.ay.toNat]
  | 4 => [m.ax.toNat, m.ay.toNat]
  | 5 => [m.ax.toNat]
  | 6 => [m.ax.toNat]
  | 7 => [m.ay.toNat]
  | _ => []

/-- The A slot's work once its registers are verified (R353). -/
def slotABody (m : Micro) (u : Unit) : Except Nat Unit :=
  let x := m.ax.toNat
  let y := m.ay.toNat
  let h := 16 * m.part.toNat
  let bf := fun r => (oElems u r 2 0).map (floatVal 7 false)
  match m.aop.toNat with
  | 1 => .ok (macWith m accAdd (bf x) (bf y) u)
  | 2 => .ok (macWith m accAdd ((oElems u x 1 h).map (floatVal 8 false)) ((oElems u y 1 h).map (floatVal 8 false)) u)
  | 3 =>
    let blk := oReg u x ++ oReg u (x + 1)
    if (blk.getD 0 0).toNat != 0xA4 then .error cZFormat
    else
      let grp := (blk.drop (2 + 12 * m.part.toNat)).take 12
      let es := (List.range 16).map (fun i => stepVal 11 (zWord 11 (blk.getD 1 0).toNat grp i))
      .ok (macWith m accAdd es (bf y) u)
  | 4 => .ok (macWith m accAddI (oElems u x 1 h) (oElems u y 1 h) u)
  | 5 => .ok ((bf x).zipIdx.foldl (fun u v => setM v.2 (accRound (Val.add false (accF u v.2) v.1)) u) u)
  | 6 => .ok ((bf x).zipIdx.foldl (fun u v => setM v.2 (accRound (some (fminVal true (accF u v.2) v.1))) u) u)
  | 7 =>
    let f := floatVal tF32 false (leNat (((oReg u y).drop (4 * m.part.toNat)).take 4))
    .ok ((List.range 16).foldl (fun u i => setM i (accRound ((accF u i).mul f)) u) u)
  | 8 => .ok { u with m := [] }
  | _ => .ok u

/-- The A slot. -/
def slotA (k : Nat) (m : Micro) : Part := fun u s =>
  (beforeUse k (aRegs m) u s).bind (fun u s => match slotABody m u with
    | .ok u => (.ok u, s)
    | .error c => (.error (.fault c 0), s))

/-- A column written: it waits for the block's other column, or completes it (R355). -/
def writeColumn (k col : Nat) (bs : List Byte) (u : Unit) (s : State) : Try Halt Unit :=
  let fresh := fun (u : Unit) (s : State) => ((.ok { u with pendW := some (col, bs) }, s) : Try Halt Unit)
  match u.pendW with
  | some (c0, b0) =>
    if c0 / 2 = col / 2 && c0 != col then
      (match bindCheck k col u s with
        | (.ok u, s) => writeBlock k col (if col % 2 = 0 then bs ++ b0 else b0 ++ bs) { u with pendW := none } s
        | (.error _, s) => (.error (.merge cSliceViolation (col / 2 * 2)), s))
    else (flushWrite k u s).bind fresh
  | none => fresh u s

/-- The accumulators as a BF16 column (R354). -/
def cpsBytes (u : Unit) : List Byte × Bool :=
  (List.range 16).foldl (fun r i => match roundTo unitRounding 7 (accF u i) with
    | .ok (w, f) => (r.1 ++ leBytes 2 w, r.2 || f &&& fOF != 0)
    | .error _ => (r.1 ++ leBytes 2 (nanBits 7), r.2)) ([], false)

/-- The W slot (R354). -/
def slotW (k : Nat) (m : Micro) : Part := fun u s =>
  let col := u.apOf m.wap + m.woff.toNat
  match m.wop.toNat with
  | 1 =>
    (beforeUse k [m.ws.toNat] u s).bind (fun u s =>
      if !colAllowed s k u col then (.error (.fault cBankRange col), s)
      else (writeColumn k col (oReg u m.ws.toNat) u s).bind (fun u s => (.ok (postStep u m.wap m.wpost), s)))
  | 3 =>
    if !colAllowed s k u col then (.error (.fault cBankRange col), s)
    else
      let (bs, o) := cpsBytes u
      (writeColumn k col bs { u with ovf := u.ovf || o } s).bind (fun u s => (.ok (postStep u m.wap m.wpost), s))
  | 2 =>
    (flushWrite k u s).bind (fun u s =>
      (.ok { u with result := (List.range 16).foldl (fun t i => tput t (m.woff.toNat % 8 * 16 + i) (tget u.m 0 i)) u.result }, s))
  | _ => flushWrite k u s

/-! ## CTL (R351) -/

/-- What is open or waiting completes before a HALT, a FLAG or a taken CLOSE. -/
def completeAllParts (k : Nat) : Part := fun u s => (completeRead k u s).bind (fun u s => flushWrite k u s)

/-- The PC moves on, unless it stands at 255. -/
def nextWord : Part := fun u s =>
  if u.pc = 255 then (.error (.fault cMicroword 0), s) else (.ok { u with pc := u.pc + 1, byClose := false }, s)

/-- A CTL action: what it does, and then where the unit goes on; a fault of the second keeps the first (R351). -/
structure Ctl where
  act : Part := fun u s => (.ok u, s)
  go : Part := nextWord

def loopCtl (m : Micro) : Ctl :=
  let c := m.carg.toNat % 4
  { act := fun u s =>
      (.ok (if u.byClose then u else { u with lc := tput u.lc c (tget u.lcInit 0 c), ls := tput u.ls c u.pc }), s)
    go := fun u s =>
      if !u.byClose && tget u.lcInit 0 c = 0 then (.error (.fault cBankRange 0), s) else nextWord u s }

def closeCtl (k : Nat) (m : Micro) : Ctl :=
  let c := m.carg.toNat % 4
  { act := fun u s =>
      let n := (tget u.lc 0 c + 0xFFFF) % 0x10000
      ((if n = 0 then (.ok u, s) else completeAllParts k u s) : Try Halt Unit).bind (fun u s => (.ok { u with lc := tput u.lc c n }, s))
    go := fun u s =>
      if tget u.lc 0 c = 0 then nextWord u s else (.ok { u with pc := tget u.ls 0 c, byClose := true }, s) }

def haltCtl (k : Nat) : Ctl :=
  { act := completeAllParts k, go := fun u s => (.ok { u with run := .halted }, s) }

def flagCtl (k : Nat) (m : Micro) : Ctl :=
  { act := fun u s => (completeAllParts k u s).bind (fun u s =>
      (.ok { u with flags := u.flags ||| (1#8 <<< (m.carg.toNat % 8)) }, s)) }

/-- WAITBC takes the mailbox (R351); it is full when this runs. -/
def takeMail (m : Micro) (u : Unit) : Unit :=
  let r := m.carg.toNat % 8
  { setO r u.mailbox u with mailbox := [], mailFull := false }

/-! ## One word -/

/-- The parts of a word in their order, each given the state the part before it left. -/
def wordParts (k : Nat) (m : Micro) (ctl : Ctl) (u : Unit) (s : State) : Try Halt Unit × Unit :=
  let step (p : Part) (x : Try Halt Unit × Unit) : Try Halt Unit × Unit :=
    match x.1 with
    | (.ok u, s) => (p u s, u)
    | (.error e, s) => ((.error e, s), x.2)
  step ctl.go (step ctl.act (step (slotW k m) (step (slotA k m) (step (slotF k m) ((.ok u, s), u)))))

/-- A context that is due to be switched away from: only where another can run, and never between the two column writes of a
block (R367, R368). -/
def maySwitch (k : Nat) (s : State) : State :=
  let pb := physBank s k
  if (bankRunners s pb).any (· != k) && (s.unit k).pendW.isNone then s.due [{ instr := .contextSwitch pb }] else s

/-- A unit stands FAULTED; the column cycles of the word are counted (R422). -/
def putFault (k c a : Nat) (u : Unit) (s : State) : State :=
  let fu : Unit := { u with run := .faulted, faultCause := c, faultCol := a, pendW := none, openCol := none, unver := [] }
  maySwitch k ((countEvent (k / 8192) 0x05 (u.cycles - (s.unit k).cycles) s).setUnit k fu)

/-- The merge of a fault's waiting write, once it could be decided: its own cause counts. -/
def mergeFault (k cause col : Nat) (u : Unit) (r : Try Halt Unit) : State :=
  match r with
  | (.ok u, s) => putFault k cause col u s
  | (.error (.merge c a), s) | (.error (.fault c a), s) | (.error (.read c a), s) => putFault k c a { u with cycles := u.cycles + 1 } s
  | (.error (.stall _), s) => putFault k cause col u s

/-- A fault: a block write that still waits is completed first, and its own cause counts (R355, R356). -/
def faultUnit (k cause col : Nat) (u : Unit) (s : State) : State :=
  match flushWrite k u s with
  | (.error (.stall pa), s) => mergeFault k cause col u (flushWrite k u (checkBlock pa 1 s).2)
  | r => mergeFault k cause col u r

/-- A microword (R351). A word that finds a correctable error starts again once the block is corrected: until then nothing of
it is seen. A fault keeps what the parts before it did. -/
def runWord (m : Micro) (wait : Bool) (ctl : Nat → Ctl) (s : State) : Host.Outcome State Fault Refusal :=
  match s.who with
  | some (.unit k) =>
    let u := s.unit k
    let s := { s with banks := tput s.banks (physBank s k) (k + 1) }
    if wait && !u.mailFull then .next { maySwitch k s with who := none, waited := true }
    else
      let u0 := if wait then takeMail m u else u
      let u1 : Unit := { u0 with cycles := u0.cycles + 1, stamp := s.time + 1 }
      let s0 := { s with time := s.time + 1 }
      let done := match wordParts k m (ctl k) u1 s0 with
        | ((.ok u', s'), _) =>
          let s' := (countEvent (k / 8192) 0x05 (u'.cycles - u.cycles) s').setUnit k { u' with
            cycles := if 1024 ≤ u'.cycles && u'.pendW.isNone then 0 else u'.cycles }
          if 1024 ≤ u'.cycles || u'.run == RunState.halted then maySwitch k s' else s'
        | ((.error (.fault c a), s'), u') => faultUnit k c a u' s'
        | ((.error (.read c a), s'), u') => faultUnit k c a { u' with cycles := u'.cycles + 1 } s'
        | ((.error (.merge c a), s'), u') => faultUnit k c a { u' with pendW := none, cycles := u'.cycles + 1 } s'
        | ((.error (.stall pa), _), _) => (s0.setUnit k { u with stalled := some pa, stamp := s.time + 1 }).due [{ instr := .correction k }]
      .next { done with who := none }
  | _ => .fault .noIssuer

def execNext (m : Micro) (s : State) : Host.Outcome State Fault Refusal := runWord m false (fun _ => {}) s
def execLoop (m : Micro) (s : State) : Host.Outcome State Fault Refusal := runWord m false (fun _ => loopCtl m) s
def execClose (m : Micro) (s : State) : Host.Outcome State Fault Refusal := runWord m false (fun k => closeCtl k m) s
def execHalt (m : Micro) (s : State) : Host.Outcome State Fault Refusal := runWord m false haltCtl s
def execWaitbc (m : Micro) (s : State) : Host.Outcome State Fault Refusal := runWord m true (fun _ => {}) s
def execFlag (m : Micro) (s : State) : Host.Outcome State Fault Refusal := runWord m false (fun k => flagCtl k m) s

/-! ## Correction and switching -/

/-- CORRECTION (R356 step 3): the block is rewritten, the count of its owner goes up, the unit goes on. -/
def correctionEvent (k : Nat) (s : State) : State :=
  match (s.unit k).stalled with
  | none => s
  | some pa => (checkBlock pa 1 s).2.setUnit k { s.unit k with stalled := none }

def execCorrection (k : Nat) (s : State) : Host.Outcome State Fault Refusal := event (correctionEvent k) s

/-- CONTEXT_SWITCH (R368): round robin among the contexts that can run, at the boundaries of R367. -/
def contextSwitchEvent (pb : Nat) (s : State) : State :=
  let u := s.unit (tget s.banks 0 pb - 1)
  if unitHeld s pb && (u.pendW.isSome || u.stalled.isSome) then s
  else match nextRunner s pb with
    | some k => { s with banks := tput s.banks pb (k + 1) }
    | none => s

def execContextSwitch (bank : Nat) (s : State) : Host.Outcome State Fault Refusal := event (contextSwitchEvent bank) s

end Sys2Proof.Machine
end

