-- ==== Sys2Proof/Machine/Bank.lean ====
section
/-! DEFINITION. Machine/Bank.lean: the BANK instructions (R358 to R366): BKLD, BKRUN, BKWAIT, BKRD and BKST. -/

namespace Sys2Proof.Machine

def gBank (minor : Nat) (named : List Nat := []) : Gate := { major := 0x36, minor := minor, named := named }

/-! ## Operands -/

/-- A bank range (R358): reserved bits, first bank, banks. -/
def rangeReserved (x : Nat) : Bool := bits x 15 13 != 0 || bits x 31 29 != 0
def rangeBanks (x : Nat) : List Nat := span (bits x 12 0) (bits x 28 16 + 1)
def rangeBad (s : State) (f x : Nat) : Bool := nlb s f ≤ bits x 12 0 + bits x 28 16

/-- A scratchpad operand: aligned, inside the team's scratchpad, outside unfinished copies' destinations (R359 step 5). -/
def spadOperand (s : State) (e : Env) (off n align : Nat) : Except AddrFault (List Byte) :=
  if off % align != 0 then .error (cMisaligned, off)
  else if e.team.extent < off + n then .error (cProtection, off)
  else
    let ps := homePlaces off ((span off n).map (spadHome e.lower e.team))
    match ps.find? (lockHit s e.core e.team.f .load) with
    | some p => .error (cRangeLock, p.va)
    | none => .ok (ps.map (fun p => homeByte s p.h))

def leWord (bs : List Byte) (off n : Nat) : Nat := leNat ((bs.drop off).take n)

def unitsOf (e : Env) (bs : List Nat) : List Nat := bs.map (unitKey e.team.f)

def Unit.busy (u : Unit) : Bool := u.run == .running || u.run == .paused

/-! ## BKLD (R360) -/

/-- The microwords of an image; none is MICROWORD. -/
def imageWords (bs : List Byte) : Option (Nat × List (BitVec 64)) :=
  let n := leWord bs 0 2
  let st := leWord bs 2 1
  let ws := (List.range n).map (fun i => BitVec.ofNat 64 (leWord bs (8 + 8 * i) 8))
  if leWord bs 3 5 = 0 && ws.all (fun w => (decodeMicroword w).isSome) then some (st, ws) else none

def bkldBody (r : Src2Args) : Env → State → Eff := engine fun e s =>
  needs e [srcS r.a.toNat r.qa, srcS r.b.toNat r.qb] s (
    let x := (e.ctx.readS r.a.toNat).toNat
    let off := (e.ctx.readS r.b.toNat).toNat
    if rangeReserved x then .trap cReserved none 0 s
    else if rangeBad s e.team.f x then .trap cBankRange none 0 s
    else match spadOperand s e off 8 8 with
      | .error c => .trap c.1 none c.2 s
      | .ok hd =>
        let n := leWord hd 0 2
        match spadOperand s e off (8 + 8 * n) 8 with
          | .error c => .trap c.1 none c.2 s
          | .ok bs =>
            match (if n = 0 || 256 < n || 256 < leWord hd 2 1 + n then none else imageWords bs) with
            | none => .trap cMicroword none 0 s
            | some (st, ws) =>
              let ks := unitsOf e (rangeBanks x)
              if ks.any (fun k => (s.unit k).busy) then .trap cBankState none 0 s
              else if e.team.prov then .wait s
              else .done 1 (ks.foldl (fun s k => s.setUnit k
                { s.unit k with store := ws.zipIdx.foldl (fun t w => tput t (st + w.2) w.1) (s.unit k).store }) s))

def execBkld (r : Src2Args) (s : State) : Host.Outcome State Fault Refusal := run (gBank 0) (bkldBody r) s

/-! ## BKRUN (R361) -/

/-- The cause of a parameter block (R361). -/
def paramCause (s : State) (f : Nat) (bs : List Byte) : Option Nat :=
  let aps := (List.range 4).map (fun i => leWord bs (0x10 + 4 * i) 4)
  let strs := (List.range 4).map (fun i => signed 32 (leWord bs (0x20 + 4 * i) 4))
  if bits (leWord bs 0 4) 31 8 != 0 || leWord bs 0x0C 4 != 0 || aps.any (fun a => 2 ^ 21 ≤ a) || leWord bs 0x38 8 != 0 then
    some cReserved
  else if leWord bs 8 4 = 0 || 256 * nrb s f < leWord bs 4 4 + leWord bs 8 4 || strs.any (fun x => 2 ^ 21 ≤ x.natAbs) then
    some cBankRange
  else none

/-- A context as BKRUN starts it (R349). -/
def startUnit (bs : List Byte) (owner : Nat × Nat) (u : Unit) : Unit :=
  let tab := fun (f : Nat → Nat) => ((List.range 4).foldl (fun t i => tput t i (f i)) [] : Tbl Nat)
  { store := u.store, run := .running, owner := some owner, pc := leWord bs 0 1, rowFirst := leWord bs 4 4,
    rowCount := leWord bs 8 4, ap := tab (fun i => leWord bs (0x10 + 4 * i) 4),
    str := (List.range 4).foldl (fun t i => tput t i (signed 32 (leWord bs (0x20 + 4 * i) 4))) [],
    lcInit := tab (fun i => leWord bs (0x30 + 2 * i) 2), stamp := u.stamp, bankAt := u.bankAt }

/-- Whether a home lies in rows of a function's logical bank. -/
def inRows (s : State) (f bank first count h : Nat) : Bool :=
  if hIsSpad h || hTarget h != 0 || boundTo s (hAddr h) != some f then false
  else
    let a := logicalOf s f (hAddr h)
    a / 0x800 % nlb s f == bank && first ≤ a / 0x800 / nlb s f && a / 0x800 / nlb s f < first + count

/-- The declared rows leave the issuing core's L1 and shared memory (R361). -/
def clearRows (core f bank first count : Nat) (s : State) : State :=
  let s := writeBack core (fun h _ => inRows s f bank first count h) s
  { s with resident := s.resident.filter (fun r => !inRows s f bank first count (r.1 * 64)) }

/-- The state of a context that BKRUN refuses (R359). -/
def runRefused (e : Env) (u : Unit) : Bool :=
  u.busy || ((u.run == .halted || u.run == .faulted) && u.owner.any (fun o => o != (e.team.record, e.team.idx)))

def bkrunBody (r : Src2Args) : Env → State → Eff := engine fun e s =>
  needs e [srcS r.a.toNat r.qa, srcS r.b.toNat r.qb] s (
    let x := (e.ctx.readS r.a.toNat).toNat
    let off := (e.ctx.readS r.b.toNat).toNat
    if rangeReserved x then .trap cReserved none 0 s
    else if rangeBad s e.team.f x then .trap cBankRange none 0 s
    else match spadOperand s e off 64 64 with
      | .error c => .trap c.1 none c.2 s
      | .ok bs =>
        match paramCause s e.team.f bs with
        | some c => .trap c none 0 s
        | none =>
          if (unitsOf e (rangeBanks x)).any (fun k => runRefused e (s.unit k)) then .trap cBankState none 0 s
          else if e.team.prov then .wait s
          else .done 1 ((rangeBanks x).foldl (fun s b =>
            let k := unitKey e.team.f b
            let s := clearRows e.core e.team.f b (leWord bs 4 4) (leWord bs 8 4) s
            s.setUnit k (startUnit bs (e.team.record, e.team.idx) (s.unit k))) (endRestart e s)))

def execBkrun (r : Src2Args) (s : State) : Host.Outcome State Fault Refusal := run (gBank 1) (bkrunBody r) s

/-! ## BKWAIT (R363) -/

/-- Whether a context lets BKWAIT return. -/
def Unit.released (u : Unit) (mask : BitVec 8) : Bool := !u.busy || (mask != 0 && u.flags &&& mask == mask)

/-- The status word. -/
def waitStatus (s : State) (f : Nat) (bs : List Nat) (mask : BitVec 8) : Nat :=
  let us := bs.map (fun b => (b, s.unit (unitKey f b)))
  let bad := us.find? (fun u => u.2.run == .faulted)
  (if bad.isSome then 2 ^ 31 else 0) + (if us.any (fun u => u.2.ovf) then 2 ^ 30 else 0) +
    (if mask != 0 && us.any (fun u => u.2.busy) then 2 ^ 29 else 0) +
    (match bad with
      | some (b, u) => u.faultCause * 2 ^ 20 + b
      | none => 0)

def bkwaitBody (r : SArgs) : Env → State → Eff := engine fun e s =>
  needs e [srcS r.a.toNat r.qa, srcS r.b.toNat r.qb, dstS r.d.toNat] s (
    let x := (e.ctx.readS r.a.toNat).toNat
    let b := (e.ctx.readS r.b.toNat).toNat
    let mask := BitVec.ofNat 8 b
    let bs := rangeBanks x
    if rangeReserved x || bits b 31 8 != 0 then .trap cReserved none 0 s
    else if rangeBad s e.team.f x then .trap cBankRange none 0 s
    else if !(unitsOf e bs).all (fun k => (s.unit k).released mask) then .wait s
    else
      let s := bs.foldl (fun s b =>
        let u := s.unit (unitKey e.team.f b)
        let s := dropClean e.core (fun h _ => inRows s e.team.f b u.rowFirst u.rowCount h) s
        s.setUnit (unitKey e.team.f b) { u with flags := u.flags &&& ~~~mask }) s
      .done 1 (putS e r.d.toNat (word (waitStatus s e.team.f bs mask)) s))

def execBkwait (r : SArgs) (s : State) : Host.Outcome State Fault Refusal := run (gBank 2) (bkwaitBody r) s

/-! ## BKRD (R364) -/

def bkrdBody (r : SArgs) : Env → State → Eff := engine fun e s =>
  needs e [srcS r.a.toNat r.qa, srcS r.b.toNat r.qb, dstV r.d.toNat] s (
    let x := (e.ctx.readS r.a.toNat).toNat
    let slot := (e.ctx.readS r.b.toNat).toNat
    if rangeReserved x || bits x 28 16 != 0 || 7 < slot then .trap cReserved none 0 s
    else if rangeBad s e.team.f x then .trap cBankRange none 0 s
    else
      let u := s.unit (unitKey e.team.f (bits x 12 0))
      .done 1 (sendResult e.ref false [r.d.toNat]
        (e.active.map (fun l => (vKey r.d.toNat l, tget u.result 0 (slot * 16 + l)))) s))

def execBkrd (r : SArgs) (s : State) : Host.Outcome State Fault Refusal := run (gBank 3 [r.d.toNat]) (bkrdBody r) s

/-! ## BKST (R362) -/

/-- The column formed from a vector; the lane of a finished thread is absent (R476). -/
def mailColumn (e : Env) (r : Nat) : List Byte :=
  (List.range 8).flatMap (fun l => leBytes 4 (if e.group.live.getLsbD l then e.group.readV r l else 0).toNat)

/-- Fills mailboxes in turn, until one is full: how many banks have taken the column. -/
def fillMail (f : Nat) (col : List Byte) : List Nat → Nat → State → Nat × State
  | [], n, s => (n, s)
  | b :: r, n, s =>
    let u := s.unit (unitKey f b)
    if u.mailFull then (n, s)
    else fillMail f col r (n + 1) (s.setUnit (unitKey f b) { u with mailbox := col, mailFull := true })

def bkstBody (r : Src2Args) : Env → State → Eff := engine fun e s =>
  needs e [srcS r.a.toNat r.qa, srcV r.b.toNat r.qb] s (
    let x := (e.ctx.readS r.a.toNat).toNat
    let bs := (rangeBanks x).drop e.gang.progress.phase
    if rangeReserved x then .trap cReserved none 0 s
    else if rangeBad s e.team.f x then .trap cBankRange none 0 s
    else if (unitsOf e bs).any (fun k => !(s.unit k).busy) then .trap cBankState none 0 s
    else if e.team.prov then .wait s
    else
      let (n, s) := fillMail e.team.f (mailColumn e r.b.toNat) bs e.gang.progress.phase s
      if n = (rangeBanks x).length then .done 1 s else .wait (putProgress e { started := true, phase := n, mid := 0 < n } s))

def execBkst (r : Src2Args) (s : State) : Host.Outcome State Fault Refusal := run (gBank 4 [r.b.toNat]) (bkstBody r) s

end Sys2Proof.Machine
end

