-- ==== Sys2Proof/Machine/Device.lean ====
section
/-! DEFINITION. Machine/Device.lean: how an agent reaches device memory (R265, R273, R429, R474), a function's structures there
(R46, R473), what a core has room for (R58, R112, R115, R270), and freeing what a team holds (R451 step 5). -/

namespace Sys2Proof.Machine

/-! ## Device memory as an agent of a function reaches it -/

/-- A byte of device memory read by an agent that serves `f` (R429): what lies outside is a free value, a row block of another function, or
of none, reads as it is stored, and a poisoned block of its own as zero. -/
def agByte (s : State) (f a : Nat) : Byte :=
  if 2 ≤ hTarget a || agentRangeBad s a 1 then Config.freeByte 0 a
  else if hTarget a = 0 && (boundTo s (hAddr a) != some f || (keySlot s (stackOf (hAddr a)) f).isNone) then storedByte s (hAddr a)
  else if hTarget a = 1 && t1Owner s (hAddr a) != some f then Config.freeByte 2 a
  else if hTarget a = 0 && isPoisoned s (hAddr a) then 0
  else homeByte s a

def agBytes (s : State) (f a n : Nat) : List Byte := (List.range n).map (fun i => agByte s f (a + i))
def ag32 (s : State) (f a : Nat) : Nat := leNat (agBytes s f a 4)
def ag64 (s : State) (f a : Nat) : Nat := leNat (agBytes s f a 8)
def ag16 (s : State) (f a : Nat) : Nat := leNat (agBytes s f a 2)

/-- Whether an agent that serves `f` may write there. -/
def agMay (s : State) (f a n : Nat) : Bool := hTarget a < 2 && !agentRangeBad s a n && agOwns s f a n

/-- Bytes written by an agent. -/
def agPut (f a : Nat) (bs : List Byte) (s : State) : State :=
  if agMay s f a bs.length then homeWrite 0 ((span a bs.length).zip bs) s else s
def put32 (f a v : Nat) (s : State) : State := agPut f a (leBytes 4 v) s
def put64 (f a v : Nat) (s : State) : State := agPut f a (leBytes 8 v) s

/-- ATOM.ADD, ATOM.OR, ATOM.SWAP and CAS of an agent on a word: the old value (R300). -/
def atomW (f a : Nat) (op : Nat → Nat) (s : State) : Nat × State :=
  let old := ag32 s f a
  (old, put32 f a (op old % 2 ^ 32) s)
def atomAddW (f a n : Nat) (s : State) : Nat × State := atomW f a (· + n) s
def atomDecW (f a : Nat) (s : State) : Nat × State := atomW f a (· + 0xFFFFFFFF) s
def atomOrW (f a n : Nat) (s : State) : Nat × State := atomW f a (· ||| n) s
def casW (f a old new : Nat) (s : State) : Bool × State :=
  if ag32 s f a = old then (true, put32 f a new s) else (false, s)

/-- An agent's read of a structure in stack memory notes a failing block in APOISON (R429). -/
def agTouch (core a n : Nat) (s : State) : State :=
  if hTarget a = 0 && !agentRangeBad s a n then
    match checkHomes (span a n) s with
    | (some x, s) => if x = cHeldUp then s else putCore core (fun c => { c with apoison := setBit c.apoison 0 true }) s
    | (none, s) => s
  else s

/-- An action of agent firmware on a structure: where the agent cannot reach it, it stops with the cause. -/
def withRecord (core f a n : Nat) (k : State → State) (s : State) : State :=
  match agCause s f a n with
  | some c => agentTrap core c s
  | none => k (agTouch core a n s)

/-- An action of agent firmware on several structures, each of which it must reach. -/
def withRecords (core f : Nat) : List (Nat × Nat) → (State → State) → State → State
  | [], k, s => k s
  | (a, n) :: xs, k, s => withRecord core f a n (withRecords core f xs k) s

/-- An action of agent firmware that only reads structures: an address that does not exist stops the agent (R265), and foreign
stack memory reads as ciphertext (R429). -/
def withReads (core : Nat) : List (Nat × Nat) → (State → State) → State → State
  | [], k, s => k s
  | (a, n) :: xs, k, s =>
    if agentRangeBad s a n then agentTrap core cProtection s else withReads core xs k (agTouch core a n s)

/-! ## A function's structures (R46, R473) -/

def qHdr (s : State) (f q : Nat) : Nat := s.fcsr64 f 0x0D0 % 2 ^ 56 + 64 * q
def boardAt (s : State) (f : Nat) : Nat := s.fcsr64 f 0x0D2 % 2 ^ 56
def ltabAt (s : State) (f : Nat) : Nat := s.fcsr64 f 0x0D4 % 2 ^ 56
def nodesAt (s : State) (f : Nat) : Nat := s.fcsr64 f 0x0D6 % 2 ^ 56
def nnode (s : State) (f : Nat) : Nat := bits (s.fcsr f 0x0D8).toNat 10 0
def specAt (s : State) (f : Nat) : Nat := s.fcsr64 f 0x0D9 % 2 ^ 56

/-- The agent that acts where any agent of a function may: the lowest core that serves it and whose agent has not stopped. -/
def leadCore (s : State) (f : Nat) : Nat :=
  let cs := servingCores s f
  (cs.find? (fun c => !(s.core c).agentStopped)).getD (cs.headD 0)

/-- The agent that acts: the one whose step or instruction this is, else any agent of the function. -/
def actor (s : State) (f : Nat) : Nat :=
  match s.who with
  | some (.ctx (.agent c) _) => c
  | _ => leadCore s f

/-- A step of agent firmware: it is no instruction of the agent's program. -/
def fw (core f : Nat) (i : Instr) (args : List Nat := []) : Due :=
  { who := some (.ctx (.agent core) 0), req := some { f := f, args := args }, instr := i }

/-- Arguments of the firmware step being taken. -/
def fwArg (s : State) (k : Nat) : Nat := ((s.request.map (·.args)).getD []).getD k 0

/-- The deadlines on a core's clock for which steps of its firmware wait: Basket timers and drain bounds (R81, R407). -/
def deadlines (s : State) (core : Nat) : List Nat :=
  s.agenda.filterMap (fun d =>
    let at_ := (d.req.map (fun q => q.args.getD 0 0)).getD 0
    match d.instr with
    | .lapse c _ _ => if c = core then some at_ else none
    | .saveNow c _ _ => if c = core then some at_ else none
    | _ => none)

/-- The firmware counts its nearest deadline with ATIMER (R391, R407); a program in the agent slot has the timer for itself. -/
def armTimer (core : Nat) (s : State) : State :=
  let c := s.core core
  if c.agentWork then s
  else match (deadlines s core).min? with
    | none => s
    | some d => putCore core (fun x => { x with atimer := word (d - x.clk) }) s

/-- A step of firmware `n` cycles from now. -/
def dueIn (core f n : Nat) (i : Instr) (s : State) : State := armTimer core (s.due [fw core f i [(s.core core).clk + n]])

/-- The firmware clears the event it has taken (R400); a program in the agent slot clears its own. -/
def takeEvent (core bitNo : Nat) (s : State) : State :=
  putCore core (fun c => if c.agentWork then c else { c with events := setBit c.events bitNo false }) s

/-- An event for every agent that serves a function. -/
def raiseAll (f bitNo : Nat) (s : State) : State := (servingCores s f).foldl (fun s c => raiseEvent c bitNo s) s

def takeAll (f bitNo : Nat) (s : State) : State := (servingCores s f).foldl (fun s c => takeEvent c bitNo s) s

/-- A write of a queue's KICK word (R46). -/
def writeKick (f q : Nat) (s : State) : State := s.due [{ instr := .kick f q }]

/-! ## Kernels (R14, R15, R19, R50, R132) -/

/-- A loaded descriptor: the object it belongs to. -/
def loadedObject (s : State) (f desc target : Nat) : Option Nat :=
  ((s.func f).loaded.find? (fun l => l.1 == desc && l.2.1 == target)).map (·.2.2)

structure Kernel where
  object : Nat
  header : Nat
  scratch : Nat
  entry : Nat
  handler : Nat
  codeOff : Nat
  nseg : Nat
  segs : List Nat
  deriving DecidableEq, Repr

/-- A kernel read from its descriptor. -/
def readKernel (s : State) (f object desc : Nat) : Kernel :=
  let nseg := ag16 s f (desc + 0x1C)
  { object := object, header := ag32 s f (desc + 8), scratch := ag32 s f (desc + 0x0C), entry := ag32 s f (desc + 0x10),
    handler := ag32 s f (desc + 0x24), codeOff := ag32 s f (desc + 0x20), nseg := nseg,
    segs := (List.range nseg).map (fun k => ag32 s f (object + ag32 s f (desc + 0x18) + 4 * k)) }

def Kernel.w16 (k : Kernel) : Bool := bit k.header 3
def Kernel.regs (k : Kernel) : Nat := 8 * (bits k.header 8 6 + 1)
/-- The landing slot of a segment (R132). -/
def Kernel.slotOf (k : Kernel) (n : Nat) : Nat :=
  let sl := bits (k.segs.getD n 0xFF) 7 0
  if sl = 0xFF then n else sl
/-- The landing PC of a code offset. -/
def Kernel.landPc (k : Kernel) (x : Nat) : Word := word (4096 * k.slotOf (x / 4096) + x % 4096)
/-- The segments landed before the start, in order (R132). -/
def Kernel.startSegs (k : Kernel) : List Nat :=
  if k.w16 then List.range k.nseg
  else ([k.entry / 4096] ++ (if bit k.header 16 then [k.handler / 4096] else []) ++
    (List.range k.nseg).filter (fun n => bit (k.segs.getD n 0) 8)).eraseDups
/-- The source of a segment: the address of its bytes in the object (R14). -/
def Kernel.source (k : Kernel) (n : Nat) : Nat := k.object + k.codeOff + 4096 * n

/-- The profile a launch's kernel must be loaded for on a core: S there, else L for a W16 kernel and C (R54, R58). -/
def targetOn (core header : Nat) : Nat := if isStack core then 2 else if bit header 3 then 3 else 0

/-! ## Launch records (R51) -/

def recKernel (s : State) (f r : Nat) : Nat := ag64 s f (r + 8)
def recTeamsz (s : State) (f r : Nat) : Nat := ag32 s f (r + 0x14)
def recFlags (s : State) (f r : Nat) : Nat := ag32 s f (r + 4)
def recNteam (s : State) (f r : Nat) : Nat := ag32 s f (r + 0x10)
def recSpec (s : State) (f r : Nat) : Bool := bit (recFlags s f r) 2
def recQueue (s : State) (f r : Nat) : Nat := bits (ag32 s f (r + 0xA8)) 2 0

/-- The kernel of a record, if it is loaded for a profile. -/
def kernelFor (s : State) (f r target : Nat) : Option Kernel :=
  let d := recKernel s f r
  (loadedObject s f d target).map (fun o => readKernel s f o d)

/-- The kernel of a record as a core would run it. -/
def kernelOn (s : State) (core f r : Nat) : Option Kernel :=
  kernelFor s f r (targetOn core (ag32 s f (recKernel s f r + 8)))

/-! ## Room (R58, R112, R115) -/

/-- Register KiB for some threads (R115). -/
def regKb (regs threads : Nat) : Nat := ((threads + 3) / 4 * 16 * regs + 1023) / 1024

/-- Threads of a team of a size on the lower and on the upper core (R110). -/
def lowerThreads (sz : Nat) : Nat := min sz 1024
def upperThreads (sz : Nat) : Nat := if 1024 < sz then sz - 1024 else 0

/-- Teams with something on a core: their key and record, and whether the core is their upper one. -/
def teamsOn (s : State) (core : Nat) : List (Nat × Team × Bool) :=
  s.teams.filterMap (fun t =>
    if t.2.status == .free then none
    else if t.1 / 16 == core then some (t.1, t.2, false)
    else if t.2.pair && t.1 / 16 + 1 == core then some (t.1, t.2, true) else none)

def usedKb (s : State) (core : Nat) : Nat :=
  ((teamsOn s core).map (fun t => if t.2.1.endedProv then 0 else
    regKb t.2.1.regs (if t.2.2 then upperThreads t.2.1.teamsz else if t.2.1.pair then 1024 else t.2.1.teamsz))).foldl (· + ·) 0 +
    ((reservedOn s core).map (fun r => r.2.1)).foldl (· + ·) 0
def usedScratch (s : State) (core : Nat) : Nat :=
  ((teamsOn s core).map (fun t => if t.2.1.endedProv then 0 else t.2.1.scratch)).foldl (· + ·) 0 +
    ((reservedOn s core).map (fun r => r.2.2.1)).foldl (· + ·) 0

def regFileKb (core : Nat) : Nat := if isStack core then 128 else 256
def spadSize (core : Nat) : Nat := if isStack core then 0x20000 else 0x80000

/-- The lowest free team slot of a core. -/
def freeTeamSlot (s : State) (core : Nat) : Option Nat :=
  let used := (teamsOn s core).map (fun t => if t.2.2 then t.2.1.upperSlot else t.1 % 16) ++ (reservedOn s core).map (·.1)
  (List.range (teamSlots core)).find? (fun k => !used.contains k)

/-- The private blocks of a function that DISP reservations hold (R58, R270). -/
def reservedPriv (s : State) (f : Nat) : List Nat :=
  s.cores.filterMap (fun c => c.2.held.bind (fun v => if v.f = f then some v.priv else none))

/-- The lowest free private block of a function's pool (R270). -/
def freePriv (s : State) (f : Nat) : Option Nat :=
  let taken := (s.func f).privUsed ++ reservedPriv s f
  (List.range (bits (s.fcsr f 0x044).toNat 15 0)).find? (fun i => !taken.contains i)
def privBase (s : State) (f i : Nat) : Nat := (s.fcsr64 f 0x042 % 2 ^ 56 + 2 ^ 27 * i) % 2 ^ 56

/-- A SETW or a resume waits for contexts on a core, a world switch holds it, or an amendment takes it away (R112, R418, R438). -/
def dispHeld (s : State) (core f : Nat) : Bool :=
  !(s.core core).resumeWait.isEmpty || s.teams.any (fun t => t.2.setwWait.isSome && (teamCores (t.1 / 16) t.2).contains core) ||
    (bit (s.fcsr f 0x061).toNat 31 && bit (s.fcsr64 f 0x102) (core / 8) && !isStack core) || (s.func f).leaving.contains core

/-- Room of one core for registers, scratchpad and start segments. -/
def coreRoom (s : State) (core kb scratch segs : Nat) : Bool :=
  usedKb s core + kb ≤ regFileKb core && usedScratch s core + scratch ≤ spadSize core &&
    segs + reservedSegs s core ≤ freePhysCount s core

/-- Room for one team of a record on a core, as the reservation it would take: a team of more than 1,024 threads spans the
core's pair, whichever of the two agents asks; `priv` is the block of a team that has one. -/
def roomFor (s : State) (core f r : Nat) (k : Kernel) (priv : Option Nat) : Option Reserved :=
  let sz := recTeamsz s f r
  let pair := 1024 < sz
  let segs := k.startSegs.length
  let kb := regKb k.regs (lowerThreads sz)
  let kb2 := regKb k.regs (upperThreads sz)
  let core := if pair then core / 2 * 2 else core
  if pair && isStack core || dispHeld s core f || pair && dispHeld s (core + 1) f then none
  else match freeTeamSlot s core, (if pair then (freeTeamSlot s (core + 1)).map some else some none),
      (match priv with
        | some p => some p
        | none => freePriv s f) with
    | some sl, some up, some p =>
      if coreRoom s core kb k.scratch segs && (!pair || coreRoom s (core + 1) kb2 k.scratch segs) then
        some { record := r, slot := sl, lower := core, object := k.object, upper := up, kb := kb, kb2 := kb2, scratch := k.scratch,
               segs := segs, priv := p, f := f }
      else none
    | _, _, _ => none

/-! ## Freeing what a team holds -/

/-- Scratchpad granules of a team's part of a core become full (R297). -/
def clearGranules (core base len : Nat) (s : State) : State :=
  let lo := base / 16
  let hi := (base + len + 15) / 16
  putCore core (fun c => { c with gfull := c.gfull.filter (fun g => g < lo || hi ≤ g) ++ span lo (hi - lo) }) s

/-- Frames of a team on its cores: those of its groups and of its team-scalar context. -/
def teamFrames (s : State) (lower slot : Nat) : List (Nat × Nat) :=
  (lower, scalarCtxNo slot) :: (s.groups.filter (fun g => g.1 / 128 == teamKey lower slot)).map (fun g => (g.2.core, g.2.ctxNo))
/-- A frame is gone, and with it the action its agent was about to take. -/
def discardFrame (core no : Nat) (s : State) : State :=
  let mine : Due → Bool := fun d => d.req.any (fun q => q.args.getD 1 0 == core + 1) && d.stage.any (fun w =>
    bits w.toNat 22 16 = no && !bit w.toNat 28)
  setFrame core no {} { s with agenda := s.agenda.filter (fun d => !mine d) }
def discardFrames (lower slot : Nat) (s : State) : State :=
  (teamFrames s lower slot).foldl (fun s f => discardFrame f.1 f.2 s) s

/-- Registers, contexts, scratchpad, banks, instruction slots, range locks and reservations of a team are freed. -/
def freeResources (lower slot : Nat) (s : State) : State :=
  let t := s.team lower slot
  let key := teamKey lower slot
  let s := freeSlots lower slot s
  let s := (teamCores lower t).foldl (fun s c =>
    clearGranules c (if c = lower then t.spad else t.spad2) t.scratch
      (freeBanks c (fun b => b.team == key) s)) s
  let s := { s with groups := s.groups.filter (fun g => g.1 / 128 != key) }
  (teamCores lower t).foldl (fun s c => ctxFreed c s) s

/-- The block of a team goes back to the pool (R270). -/
def returnPriv (t : Team) (s : State) : State :=
  let base := (t.priv + 2 ^ 56 - s.fcsr64 t.f 0x042 % 2 ^ 56) % 2 ^ 56 / 2 ^ 27
  s.setFunc t.f { s.func t.f with privUsed := (s.func t.f).privUsed.filter (· != base) }

/-- A team that ends retains no line any more (R306). -/
def dropMarks (m : Mark) (s : State) : State :=
  { s with resident := s.resident.map (fun r => (r.1, r.2.map (fun ms => ms.filter (· != m)))) }

def Team.mark (t : Team) : Mark := { f := t.f, record := t.record, idx := t.idx }

/-- A team leaves its slot; `keepPriv` where its private block stays with it (R283). An ended provisional team has returned its
block already. -/
def leaveSlot (lower slot : Nat) (keepPriv : Bool) (s : State) : State :=
  let t := s.team lower slot
  let s := if keepPriv || t.endedProv then s else dropMarks t.mark (returnPriv t s)
  { s with teams := tdel s.teams (teamKey lower slot) }

/-- A team's slot is freed, and its kept frame goes with it. -/
def freeTeam (lower slot : Nat) (keepPriv : Bool) (s : State) : State :=
  setFrame lower (scalarCtxNo slot) {} (leaveSlot lower slot keepPriv s)

/-- The team of a function that a record and an index name, if it is resident: its lower core and slot. -/
def findTeam (s : State) (f r idx : Nat) : Option (Nat × Nat) :=
  (s.teams.find? (fun t => t.2.status != .free && t.2.f == f && t.2.record == r && t.2.idx == idx)).map (fun t =>
    (t.1 / 16, t.1 % 16))

/-- Whether nothing of a team is under way any more, and no copy of another team names it (R451 step 1, R107, R318, R410). -/
def quiet (s : State) (lower slot : Nat) : Bool :=
  let t := s.team lower slot
  (teamOps s lower slot).isEmpty && !copyNames s lower slot && t.cmds.isEmpty && t.ctx.results.isEmpty &&
    (s.groups.filter (fun g => g.1 / 128 == teamKey lower slot)).all (fun g => g.2.ctx.results.isEmpty)

/-- Whether every bank-unit context a team started has stopped (R366). -/
def unitsStopped (s : State) (t : Team) : Bool :=
  s.units.all (fun u => !(u.1 / 8192 == t.f && u.2.owner == some (t.record, t.idx) && u.2.busy))

/-- Whether every store of a team outside the device has been answered. -/
def storesAnswered (s : State) (lower slot : Nat) : Bool := !s.outStores.any (fun o => o.team == teamKey lower slot)

/-! ## Contexts by number -/

/-- The issuer that a context number names on a core, standing at `pc` with the lanes of `lanes`. -/
def ctxEnv (s : State) (core no : Nat) (pc : Word) (lanes : BitVec 64) : Option Env :=
  if 112 ≤ no then
    let t := s.team core (no - 112)
    if t.status == .free then none
    else some { ref := .scalar core (no - 112), core := core, lower := core, slot := no - 112, gi := 0, team := t, ctx := t.ctx,
                group := {}, gang := { id := 0, pc := pc, lanes := 0 } }
  else
    ((groupsOn s core).find? (fun g => g.2.ctxNo == no)).map (fun g =>
      let l := g.1 / 128 / 16
      let sl := g.1 / 128 % 16
      { ref := .group l sl (g.1 % 128), core := core, lower := l, slot := sl, gi := g.1 % 128, team := s.team l sl,
        ctx := g.2.ctx, group := g.2, gang := { id := 0, pc := pc, lanes := lanes } })

/-- The stopped context a frame stands in: at its TPC, with its gang. -/
def frameEnv (s : State) (core no : Nat) : Option Env :=
  let fr := (s.core core).frame no
  ctxEnv s core no fr.tpc fr.gang

/-- Contexts of a team parked under WAITPAGE issue their trapping instruction again (R282, R392). -/
def retryTeamPages (lower slot : Nat) (s : State) : State :=
  (teamFrames s lower slot).foldl (fun s x =>
    let fr := (s.core x.1).frame x.2
    if !fr.waitPage then s
    else match frameEnv s x.1 x.2 with
      | none => s
      | some e => resumeCtx e x.2 fr.tpc fr.gang s) s

end Sys2Proof.Machine
end

