-- ==== Sys2Proof/Machine/TeamEnd.lean ====
section
/-! DEFINITION. Machine/TeamEnd.lean: the end of a team (R451, R452): stopping it, its deferred causes, its held stores, its
write-back, the release of what it holds, and the report to its agent. -/

namespace Sys2Proof.Machine

/-- Engine operations of a team that stand at an absent page stop at once, and record nothing on their tokens (R283, R315);
FAIL discards them as the retries they are (R393). -/
def stopStalled (lower slot : Nat) (s : State) : State :=
  (teamOps s lower slot).foldl (fun s o =>
    if o.2.2.stalledAt.isNone then s
    else match o.2.2.kind with
      | .copy => finishCopy o.1 o.2.1 0 s
      | .pref => finishPref o.1 o.2.1 0 s
      | .code => endLanding lower o.2.1 cPageAbsent o.2.2 s) s

/-- A team is brought to its end by FAIL, SQUASH or an abort (R393, R107, R283): no group of it issues any more, its frames are
discarded, and TEAM_END is due. Operations that stand at an absent page wait on only where a team under STALL is squashed (R107,
R315). -/
def endTeam (lower slot : Nat) (k : EndKind) (s : State) : State :=
  let t := s.team lower slot
  if t.status == .free || t.endedProv then s
  else
    let s := (discardFrames lower slot s).setTeam lower slot
      { t with status := .ending, killed := true, endKind := k, setwWait := none, stopped := false }
    let s := if k == .squash && t.runsStall then s else stopStalled lower slot s
    if t.status == .ending && !t.stopped then s else s.due [{ instr := .teamEnd lower slot }]

/-- The first deferred cause of a team that ended by EXIT (R451 step 2, R286, R318, R340). -/
def deferredCause (s : State) (lower slot : Nat) : Option Nat :=
  let t := s.team lower slot
  let first : List Nat → Option Nat := fun cs => cs.find? (· != 0)
  let tokens := match t.producer with
    | some p => (List.range 8).map (tget (s.group lower slot p).tokenCauses 0)
    | none => []
  let matrix := (List.range t.ngrp).map (fun g => (s.group lower slot g).matrixFail)
  first (tokens ++ matrix ++ [if t.remoteFail then cRemoteFail else 0])

/-- The issuer of the EXIT that finished a team's last thread. -/
def exitEnv (s : State) (lower slot : Nat) : Env :=
  let t := s.team lower slot
  let ga : Gang := { id := 0, pc := t.exitPc, lanes := t.exitLanes }
  match t.exitGroup with
  | some g =>
    let gr := s.group lower slot g
    { ref := .group lower slot g, core := gr.core, lower := lower, slot := slot, gi := g, team := t, ctx := gr.ctx,
      group := gr, gang := ga }
  | none =>
    { ref := .scalar lower slot, core := lower, lower := lower, slot := slot, gi := 0, team := t, ctx := t.ctx,
      group := {}, gang := ga }

/-- The deferred cause in a frame of the group whose EXIT finished the last thread; the agent stages FAIL. -/
def reportDeferred (lower slot cause : Nat) (s : State) : State :=
  let e := exitEnv s lower slot
  let s := stopCtx e cause (if e.isScalar then 0xFF else (lanesOf e.gang.lanes).headD 0) 0 e.gang.pc e.gang.pc s
  let s := s.setTeam lower slot { s.team lower slot with stopped := true }
  s.due [agentRtt e.lower e.core e.team.f 0 e.ctxNo .fail]

/-- Bank-unit contexts no longer count as started by a team that has ended. -/
def clearOwners (t : Team) (s : State) : State :=
  { s with units := s.units.map (fun u =>
      (u.1, if u.1 / 8192 == t.f && u.2.owner == some (t.record, t.idx) then { u.2 with owner := none } else u.2)) }

def EndKind.code : EndKind → Nat
  | .exit => 0
  | .fail => 1
  | .squash => 2
  | .abort => 3

/-- The RETIRE step of an agent and what it is told of the ended team: record, index, how it ended (4: squashed by a program
of the agent slot, which keeps the accounts itself), whether it stays
provisional, whether it had been restored under SAVENOW, and the Basket's node plus one. -/
def retireDue (lower slot : Nat) (t : Team) (keeps : Bool) : Due :=
  fw lower t.f (.retire lower slot) [t.record, t.idx, (if t.endKind == .squash && !t.byAgent then 4 else t.endKind.code), (if keeps then 1 else 0),
    (if t.restored then 1 else 0), (t.node.map (· + 1)).getD 0]

/-- A team aborted under RESTART waits to be started again, with its block and its index (R283). -/
def keepForRestart (t : Team) (s : State) : State :=
  let r : Restart := { record := t.record, idx := t.idx, nteam := t.nteam, priv := t.priv, va := t.kept, aborts := t.aborts, node := t.node,
                       restored := t.restored, prov := t.prov }
  s.setFunc t.f { s.func t.f with restarts := (s.func t.f).restarts ++ [r] }

/-- Steps 3 to 6 of R451. -/
def finishTeam (lower slot : Nat) (s : State) : State :=
  let t := s.team lower slot
  let keeps := t.prov && (t.endKind == .exit || t.endKind == .fail)
  let s := if keeps then s
    else if t.endKind == .exit then commitHamper lower slot s else dropHamper lower slot s
  let s := (teamCores lower t).foldl (fun s c => writeBackTeam c (teamKey lower slot) s) s
  let s := freeResources lower slot (clearOwners t (resolveTeamFaults t.f t.record t.idx s))
  let s := if keeps then
      dropMarks t.mark (returnPriv t (s.setTeam lower slot { s.team lower slot with endedProv := true, reservation := none, ngrp := 0 }))
    else if t.endKind == .abort then keepForRestart t (dropMarks t.mark (freeTeam lower slot true s))
    else freeTeam lower slot false s
  (raiseEvent lower 1 s).due [retireDue lower slot t keeps]

/-- TEAM_END (R451): the step is taken once the team is quiet (Machine/Due.lean). -/
def teamEndEvent (lower slot : Nat) (s : State) : State :=
  let t := s.team lower slot
  if t.status != .ending || t.endedProv then s
  else match (if t.endKind == .exit then deferredCause s lower slot else none) with
    | some c => reportDeferred lower slot c s
    | none => finishTeam lower slot s

def execTeamEnd (core slot : Nat) (s : State) : Host.Outcome State Fault Refusal := event (teamEndEvent core slot) s

end Sys2Proof.Machine
end

