-- ==== Sys2Proof/Machine/Agent.lean ====
section
/-! DEFINITION. Machine/Agent.lean: what the agent slot executes of SYSX (R56) to run teams and to talk to the host: DISP (R58),
the start of a team (R33, R92, R132, R272), WAITEV (R57), HOSTIRQ (R59), and the shootdown of translations (R278 to R280). -/

namespace Sys2Proof.Machine

/-- The gate of a SYSX minor: the agent slot only (R56). -/
def gSysx (minor : Nat) : Gate := { major := 0x3C, minor := minor, agent := .only }

/-- A step of the agent: an instruction of its program, or, where a request stands, an action of its firmware, which moves
nothing but what the action moves. -/
def agentRun (g : Gate) (body : Env → State → Eff) (s : State) : Host.Outcome State Fault Refusal :=
  match s.request with
  | none => run g body s
  | some _ =>
    match mkEnv s with
    | none => .fault .noIssuer
    | some e =>
      let t := match body e s with
        | .done _ t => t
        | .moved t => t
        | .wait t => t
        | .trap c _ a t => takeTrap e c 0xFF a e.ctx.pc e.ctx.pc t
      .next { t with who := none, request := none }

/-- The device address in a pair of scalar registers. -/
def pairAddr (e : Env) (r : Nat) : Nat := (e.ctx.readS r).toNat + (e.ctx.readS (r + 1)).toNat * 2 ^ 32

/-- The registers of a SYSX instruction with a pair in A and a scalar in B; it waits while one of them is pending. -/
def sysxNeeds (r : SysxArgs) (e : Env) (s : State) (k : Eff) : Eff :=
  needs e [srcS r.a.toNat, srcS (r.a.toNat + 1), srcS r.b.toNat, dstS r.d.toNat] s k

/-! ## Starting a team -/

/-- Where the header of a launch's pool lies, reached as an atomic of one of its teams would reach it (R99). DESIGN CHOICE
(log 115): a header in a poisoned block, or behind a link that is down, is no header. -/
def poolHeader (s : State) (core f r : Nat) : Option Nat :=
  let s := { s with domains := [] }
  match (translate core f (ag64 s f (r + 0x58) % 2 ^ 56) .atomic s).1 with
  | .error _ => none
  | .ok p => if p.tag || hTarget p.h = 2 || (hTarget p.h = 3 && !tget s.linkUp false (hDev p.h)) ||
      (checkHomes (span p.h 64) s).1.isSome then none else some p.h

/-- Bytes of a pool header; those of one that stands at a partner device are free values (log 115). -/
def poolBytes (s : State) (h n : Nat) : List Byte :=
  if hTarget h = 3 then (span h n).map (Config.freeByte 5) else readBytes s.mem h n

/-- The function's pool chunk of a team (R99): its first virtual address and its length. -/
def chunkOf (s : State) (core f r x : Nat) : Option (Nat × Nat) :=
  let pool := ag64 s f (r + 0x58)
  if pool = 0 then none
  else (poolHeader s core f r).bind (fun h =>
    let chunk := leNat (poolBytes s h 4)
    if x < leNat (poolBytes s (h + 4) 4) then some ((pool + 4096 + chunk * x) % 2 ^ 56, chunk) else none)

/-- The argument block in s0 to s15 (R33). -/
def argRegs (s : State) (f r : Nat) : Tbl Word := (List.range 16).map (fun i => (i, word (ag32 s f (r + 0x60 + 4 * i))))

/-- The windows at team start: w15 private, and in a W16 team w0 to w8 (R32, R272). -/
def startWindows (s : State) (f r : Nat) (w16 : Bool) : Tbl Window :=
  (if w16 then
    (List.range 8).map (fun k => (k, ({ kind := .global, frame := ag64 s f (r + 0x60 + 8 * k) % 2 ^ 56 } : Window))) ++
      [(8, { kind := .spad })]
  else []) ++ [(15, { kind := .priv })]

/-- The landing of one start segment (R132): its source is translated as an engine access of the team (R136, log 40). -/
def landStart (lower slot : Nat) (k : Kernel) (s : State) (n : Nat) : State :=
  startLanding lower slot (k.slotOf n) (k.source n) none s

/-- A team as DISP leaves it: team x of the launch at r, with the room reserved for it (R58). -/
def newTeam (s : State) (f r x : Nat) (k : Kernel) (v : Reserved) (node : Option Nat) (back : Option Restart) : Team :=
  let sz := recTeamsz s f r
  let prov := match back with
    | some b => b.prov
    | none => recSpec s f r && node.isNone && ag32 s f (r + 0x44) ≤ x
  { status := .starting, f := f, record := r, idx := x, teamsz := sz, nteam := (back.map (·.nteam)).getD (recNteam s f r), header := word k.header,
    regs := k.regs, scratch := k.scratch, spad := v.slot * 0x80000, spad2 := (v.upper.getD 0) * 0x80000,
    entry := k.landPc k.entry, handlerPc := k.landPc k.handler, idem := bit k.header 4, w16 := k.w16,
    pair := 1024 < sz, upperSlot := v.upper.getD 0, prov := prov,
    stall := (back.map (fun b => b.aborts.any (fun a => 16 ≤ a.2))).getD false,
    aborts := (back.map (·.aborts)).getD [], priv := privBase s f v.priv, stamp := s.time,
    ctx := { s := argRegs s f r, win := startWindows s f r k.w16, pc := k.landPc k.entry },
    node := node, restored := (back.map (·.restored)).getD false,
    chunk := if recSpec s f r && node.isNone then chunkOf s v.lower f r x else none }

/-- What a team finds in its scratchpad is unknown to it (R452): free values. -/
def freshSpad (core base len : Nat) (s : State) : State :=
  let (bs, s) := s.drawBytes len
  putCore core (fun c => { c with spad := writeCells c.spad ((span base len).zip bs) }) s

/-- StartTeam (R58): the team takes its slot, its scratchpad's granules become full, and its start segments land. -/
def dispatch (f x : Nat) (k : Kernel) (v : Reserved) (node : Option Nat) (back : Option Restart) (s : State) : State :=
  let core := v.lower
  let t := newTeam s f v.record x k v node back
  let s := setFrame core (scalarCtxNo v.slot) {} (s.setTeam core v.slot t)
  let fn := s.func f
  let s := s.setFunc f { fn with privUsed := if fn.privUsed.contains v.priv then fn.privUsed else fn.privUsed ++ [v.priv] }
  let s := freshSpad core t.spad t.scratch (clearGranules core t.spad t.scratch s)
  let s := if t.pair then freshSpad (core + 1) t.spad2 t.scratch (clearGranules (core + 1) t.spad2 t.scratch s) else s
  beginCheck core v.slot (k.startSegs.foldl (landStart core v.slot k) s)

/-! ## DISP -/

/-- DISP with 0xFFFF_FFFF where no reservation stands (R58): 0 held, 1 no room, 2 not loaded for this core. -/
def reserveTeam (core f r : Nat) (s : State) : Nat × State :=
  match kernelOn s core f r with
    | none => (2, s)
    | some k => match roomFor s core f r k none with
      | none => (1, s)
      | some v => (0, putCore core (fun c => { c with held := some v }) s)

/-- DISP with 0xFFFF_FFFE (R58). -/
def releaseTeam (core : Nat) (s : State) : Nat × State :=
  if (s.core core).held.isSome then (0, putCore core (fun c => { c with held := none }) s) else (3, s)

/-- DISP of team x with the reservation for its record (R58): the kernel is the one the reservation found. -/
def startTeamAs (core f x : Nat) (v : Reserved) (s : State) : State :=
  dispatch f x (readKernel s f v.object (recKernel s f v.record)) v none none (putCore core (fun c => { c with held := none }) s)

/-- The result of a form of DISP goes to D. `early` answers before the record is looked at. -/
def dispBody (r : SysxArgs) (early : Nat → Nat → Option Reserved → Option Nat)
    (act : Nat → Nat → Nat → Nat → State → Nat × State) (e : Env) (s : State) : Eff :=
  sysxNeeds r e s (
    let f := servedBy s e.core
    let rec_ := pairAddr e r.a.toNat
    let x := (e.ctx.readS r.b.toNat).toNat
    match early rec_ x (s.core e.core).held with
    | some v => .done 1 (putS e r.d.toNat (word v) s)
    | none =>
      match agCause s f rec_ 256 with
      | some c => .trap c none rec_ s
      | none =>
        let (v, s) := act e.core f rec_ x (agTouch e.core rec_ 256 s)
        .done 1 (putS e r.d.toNat (word v) s))

/-- What DISP of team x answers without a start (R58): 4 an index out of range, 3 no reservation for the record. -/
def startEarly (rec_ x : Nat) (held : Option Reserved) : Option Nat :=
  if 0x80000000 ≤ x then some 4 else if held.any (·.record == rec_) then none else some 3

/-- DISP (R58). -/
def execDisp (r : SysxArgs) (s : State) : Host.Outcome State Fault Refusal :=
  run (gSysx 0) (dispBody r startEarly (fun core f _ x s => match (s.core core).held with
    | some v => (0, startTeamAs core f x v s)
    | none => (3, s))) s

/-- DISP of 0xFFFF_FFFF (R58): 3 where a reservation stands. -/
def execDispReserve (r : SysxArgs) (s : State) : Host.Outcome State Fault Refusal :=
  run (gSysx 0) (dispBody r (fun _ _ held => if held.isSome then some 3 else none)
    (fun core f rec_ _ s => reserveTeam core f rec_ s)) s

/-- DISP of 0xFFFF_FFFE (R58): the record is not looked at. -/
def execDispRelease (r : SysxArgs) (s : State) : Host.Outcome State Fault Refusal :=
  run (gSysx 0) (fun e s => sysxNeeds r e s (
    let (v, s) := releaseTeam e.core s
    .done 1 (putS e r.d.toNat (word v) s))) s

/-! ## STARTTEAM -/

/-- The line of FILLED of a node team's batch (R73, R78, R81). -/
def batchLine (s : State) (f : Nat) (t : Team) : Option Nat :=
  t.node.map (fun k =>
    let bk := nodesAt s f + 64 * k
    let cfg := ag32 s f (bk + 0x18)
    let batch := 8 * 2 ^ bits cfg 4 3
    (ag64 s f (bk + 8) % 2 ^ 56 + (64 + 32 * batch) * (t.idx / 128 % bits cfg 26 16)) / 64)

/-- A team's start is an acquire of what its launch depends on (R78, R377): its cores drop their clean lines of the
function, and a node team pulls the records of its batch's FILLED word. -/
def acquireStart (lower : Nat) (t : Team) (s : State) : State :=
  let s := match batchLine s t.f t with
    | some l => pullLine s l
    | none => s
  (teamCores lower t).foldl (fun s c => dropClean c (fun _ b => b.f == t.f) s) s

/-- A W16 team waits for its groups as a SETW of its header would: FORMGROUPS stays due until it is served (R128). -/
def waitGroups (lower slot : Nat) (s : State) : State :=
  let t := s.team lower slot
  let s := formGroupsEvent lower slot
    (s.setTeam lower slot { t with status := .starting, setwReq := bits t.header.toNat 2 0, setwWait := some s.time })
  if (s.team lower slot).setwWait.isSome then s.due [{ instr := .formGroups lower slot }] else s

/-- STARTTEAM (R58, R128, R139): the segments have landed. A W16 team forms its groups as a SETW of its header would, and waits
for contexts as one; a restored team goes on as it was saved (R117, R128), and what waited for a page in it issues again (R282). -/
def startTeamEvent (lower slot : Nat) (s : State) : State :=
  let t := s.team lower slot
  if t.slots.any (fun l => l.2.st == .landing) then s
  else if t.status == .resuming then
    if t.g = 0 && t.w16 then waitGroups lower slot s
    else retryTeamPages lower slot (s.setTeam lower slot { t with status := if t.g = 0 then .scalar else .running })
  else if t.status != .starting then s
  else
    let s := acquireStart lower t s
    if t.w16 then waitGroups lower slot s
    else s.setTeam lower slot { t with status := .scalar }

def execStartTeam (core slot : Nat) (s : State) : Host.Outcome State Fault Refusal := event (startTeamEvent core slot) s

/-! ## WAITEV and HOSTIRQ -/

/-- Whether an agent event is pending (R400). -/
def eventPending (s : State) (core : Nat) : Bool := (s.core core).events.toNat % 2 ^ 11 != 0

/-- What an acquire at SYSTEM scope by an agent needs: whatever wrote the word, the writer's earlier writes have reached their
homes (R377). Every core writes back what is dirty for the function, as it may at any time. -/
def acquireSystem (f : Nat) (s : State) : State :=
  (s.cores.map (·.1)).foldl (fun s c => writeBack c (fun _ b => b.f == f) s) s

/-- WAITEV (R57). -/
def waitevBody (r : SysxArgs) (e : Env) (s : State) : Eff :=
  sysxNeeds r e s (
    let a := pairAddr e r.a.toNat
    if hTarget a != 1 || agentRangeBad s a 1 then .trap cProtection none a s
    else if t1Owner s (hAddr a) != some (servedBy s e.core) then .trap cSliceViolation none a s
    else if a % 4 != 0 then .trap cMisaligned none a s
    else
      let s := acquireSystem (servedBy s e.core) s
      let w := word (leNat (readBytes s.mem a 4))
      if w == e.ctx.readS r.b.toNat && !eventPending s e.core then .wait s else .done 1 (putS e r.d.toNat w s))

def execWaitev (r : SysxArgs) (s : State) : Host.Outcome State Fault Refusal := run (gSysx 6) (waitevBody r) s

/-- HOSTIRQ (R59): the agent's writes are visible at SYSTEM scope first. -/
def hostirqBody (a : BitVec 6) (e : Env) (s : State) : Eff :=
  needs e [srcS a.toNat] s (
    let v := (e.ctx.readS a.toNat).toNat
    if bits v 7 5 != 0 || bits v 31 16 != 0 then .trap cReserved none 0 s
    else if s.outStores.any (fun o => o.core == e.core && o.team == e.party) then .wait s
    else .done 1 (sendIrq (bits v 4 0) (bits v 15 8) s))

def execHostirq (a : BitVec 6) (s : State) : Host.Outcome State Fault Refusal := run (gSysx 7) (hostirqBody a) s

/-! ## Shootdown (R278 to R280) -/

/-- Whether a page overlaps a shootdown. -/
def Shoot.covers (k : Shoot) (va size : Nat) : Bool := k.all || (va < k.va + k.len && k.va < va + size)

/-- Covered translations go from every TLB. -/
def dropTlbs (k : Shoot) (s : State) : State :=
  let keep : TlbEntry → Bool := fun t => !(t.f == k.f && k.covers t.va t.size)
  { s with cores := s.cores.map (fun c => (c.1, { c.2 with tlb := c.2.tlb.filter keep })),
           l2tlb := s.l2tlb.map (fun t => (t.1, t.2.filter keep)) }

/-- The limit of every global window on a covered page becomes 0. -/
def dropLimits (k : Shoot) (s : State) : State :=
  let win : Window → Window := fun w =>
    if w.kind == .global && 0 < w.limit && k.covers w.base (w.frame + w.limit - w.base) then { w with limit := 0, pframe := 0 } else w
  let ctx : Ctx → Ctx := fun c => { c with win := c.win.map (fun w => (w.1, win w.2)) }
  let mine : Nat → Bool := fun key => (tget s.teams {} key).f == k.f
  { s with teams := s.teams.map (fun t => (t.1, if t.2.f == k.f then { t.2 with ctx := ctx t.2.ctx } else t.2)),
           groups := s.groups.map (fun g => (g.1, if mine (g.1 / 128) then { g.2 with ctx := ctx g.2.ctx } else g.2)) }

/-- Whether a core has still to acknowledge: an engine operation on it has translated a covered page, or a store that used
a covered translation is held in its Hamper, and so has not been performed (R93), or is on its way outside (R279). -/
def coreHolds (s : State) (k : Shoot) (core : Nat) : Bool :=
  (s.core core).ops.any (fun o => match o.2 with
    | some x => x.f == k.f && (x.pages.any (fun t => k.covers t.va t.size) ||
        (x.kind == .code && x.home.isSome && k.covers x.va x.len))
    | none => false) ||
  (s.core core).hamper.any (fun x => x.f == k.f && x.pages.any (fun t => k.covers t.va t.size)) ||
  s.outStores.any (fun o => o.core == core && o.f == k.f && o.pages.any (fun t => k.covers t.va t.size))

/-- A shootdown begins: translations are dropped, and each core that has to wait will acknowledge. -/
def beginShoot (k : Shoot) (s : State) : Shoot × State :=
  let s := dropLimits k (dropTlbs k s)
  let waiting := (s.cores.map (·.1)).filter (coreHolds s k)
  ({ k with started := true, pending := waiting }, s.due (waiting.map (fun c => { instr := .shootdownAck c k.f })))

/-- Requests through TINVCTL are served in order: the next one of the function begins once the one before it is done; each
counts in TINVDONE. -/
def serveShoots (f : Nat) : Nat → State → State
  | 0, s => s
  | n + 1, s =>
    match s.shoots.find? (fun k => k.f == f && k.agent.isNone) with
    | none => s
    | some k =>
      if k.started && !k.pending.isEmpty then s
      else if k.started then
        serveShoots f n ({ s with shoots := s.shoots.erase k }.setFcsr f 0x049 (s.fcsr f 0x049 + 1))
      else
        let (k', s) := beginShoot k s
        serveShoots f n { s with shoots := s.shoots.map (fun x => if x == k then k' else x) }

/-- SHOOTDOWN_ACK (R279): a core acknowledges every shootdown of the function that it no longer holds up. -/
def shootdownAckEvent (core f : Nat) (s : State) : State :=
  let s := { s with shoots := s.shoots.map (fun k =>
    if k.f == f && !coreHolds s k core then { k with pending := k.pending.filter (· != core) } else k) }
  serveShoots f (2 * s.shoots.length) s

def execShootdownAck (core f : Nat) (s : State) : Host.Outcome State Fault Refusal := event (shootdownAckEvent core f) s

/-- The shootdown a value of sB names (R278). -/
def shootOf (agent : Option Nat) (f va b : Nat) : Shoot :=
  { agent := agent, f := f, va := va, len := 65536 * (bits b 31 16 + 1), all := bit b 5 }

/-- TLBINV (R278): begins the shootdown, and ends when every core has acknowledged. -/
def tlbinvBody (r : SysxArgs) (e : Env) (s : State) : Eff :=
  sysxNeeds r e s (
    let va := (e.ctx.readS r.a.toNat).toNat + bits (e.ctx.readS (r.a.toNat + 1)).toNat 23 0 * 2 ^ 32
    let b := (e.ctx.readS r.b.toNat).toNat
    if bits b 15 6 != 0 then .trap cReserved none 0 s
    else if !bit b 5 && va % 65536 != 0 then .trap cMisaligned none va s
    else
      let s := if s.shoots.any (fun k => k.agent == some e.core) then s
        else
          let (k, s) := beginShoot (shootOf (some e.core) (bits b 4 0) va b) s
          { s with shoots := s.shoots ++ [k] }
      if s.shoots.any (fun k => k.agent == some e.core && !k.pending.isEmpty) then .wait s
      else .done 1 (putS e r.d.toNat 0 { s with shoots := s.shoots.filter (fun k => k.agent != some e.core) }))

def execTlbinv (r : SysxArgs) (s : State) : Host.Outcome State Fault Refusal := run (gSysx 3) (tlbinvBody r) s

/-- Whether a host write to a function's own registers takes effect: a locked slice takes only its tenant's (R274, R415,
R435). -/
def driverMay (s : State) (f : Nat) : Bool :=
  (s.func f).tdisp == .unlocked || ((s.request.map (·.tenant)).getD false)

/-- TINVCTL (R280): the request is queued, its event raised, and the agents serve it. -/
def tinvctlEvent (f : Nat) (value : Word) (s : State) : State :=
  if !driverMay s f || bits value.toNat 15 6 != 0 then s
  else
    let va := s.fcsr64 f 0x046 % 2 ^ 56 / 65536 * 65536
    let s := raiseAll f 3 (s.setFcsr f 0x048 value)
    let s := { s with shoots := s.shoots ++ [shootOf none f va value.toNat] }
    serveShoots f (2 * s.shoots.length) (takeAll f 3 s)

def execTinvctl (f : Nat) (value : Word) (s : State) : Host.Outcome State Fault Refusal := event (tinvctlEvent f value) s

end Sys2Proof.Machine
end

