-- ==== Sys2Proof/Machine/Board.lean ====
section
/-! DEFINITION. Machine/Board.lean: the run board (R61, R63), closing a launch (R65, R66, R70, R455), releasing successors (R64),
stopping (R67), failing (R69), settling a speculative launch (R99, R103, R106), confirming and squashing its teams (R104,
R107). -/

namespace Sys2Proof.Machine

/-! ## Fields of launch records (R51, R86, R408) -/

def rSTATE (r : Nat) : Nat := r
def rNTEAM (r : Nat) : Nat := r + 0x10
def rNEXT (r : Nat) : Nat := r + 0x18
def rDONE (r : Nat) : Nat := r + 0x1C
def rDEPS (r : Nat) : Nat := r + 0x20
def rFLOOR (r : Nat) : Nat := r + 0x44
def rSHAPEV (r : Nat) : Nat := r + 0x48
def rERROR (r : Nat) : Nat := r + 0x50
def rSCRATCH (r : Nat) : Nat := r + 0x58
def rLINK (r : Nat) : Nat := r + 0xA0
def rQUEUE (r : Nat) : Nat := r + 0xA8
def rSTOPAT (r : Nat) : Nat := r + 0xAC
def rSPECST (r : Nat) : Nat := r + 0xB0
def rLIVEP (r : Nat) : Nat := r + 0xB4
def rSLINK (r : Nat) : Nat := r + 0xB8
def rPREDN (r : Nat) : Nat := r + 0xC0
def rNSAVED (r : Nat) : Nat := r + 0xC8
def rPREEMPT (r : Nat) : Nat := r + 0xCC

def recState (s : State) (f r : Nat) : Nat := ag32 s f (rSTATE r) % 8
/-- A launch that runs or drains. -/
def recLive (s : State) (f r : Nat) : Bool := recState s f r == 3 || recState s f r == 4
def recStop (s : State) (f r : Nat) : Bool := bit (recFlags s f r) 3
def recSettled (s : State) (f r : Nat) : Bool := bit (ag32 s f (rSPECST r)) 1

/-! ## The run board -/

def rowAt (s : State) (f : Nat) (stack : Bool) (q : Nat) : Nat := boardAt s f + (if stack then 0x840 else 0) + 0x210 * q
def recStack (s : State) (f r : Nat) : Bool := bit (recFlags s f r) 4
def recRow (s : State) (f r : Nat) : Nat := rowAt s f (recStack s f r) (bits (recFlags s f r) 1 0)
def rowEntry (row i : Nat) : Nat := row + 16 + 8 * i
def rowEntries (s : State) (f row : Nat) : List Nat := (List.range 64).map (fun i => ag64 s f (rowEntry row i))

/-- A list of 64 entries in memory with an overflow chain: an address goes into the first zero entry, else onto the chain. -/
def listPut (f entries ovf link a : Nat) (s : State) : State :=
  match (List.range 64).find? (fun i => ag64 s f (entries + 8 * i) = 0) with
  | some i => put64 f (entries + 8 * i) a s
  | none => put64 f ovf a (put64 f (a + link) (ag64 s f ovf) s)

/-- One entry that holds the address becomes 0; the head of the chain, if there is one, moves into it. -/
def listDrop (f entries ovf link a : Nat) (s : State) : State :=
  match (List.range 64).find? (fun i => ag64 s f (entries + 8 * i) = a) with
  | none => s
  | some i =>
    let head := ag64 s f ovf
    if head = 0 then put64 f (entries + 8 * i) 0 s
    else put64 f ovf (ag64 s f (head + link)) (put64 f (entries + 8 * i) head s)

/-- The addresses of a chain, at most `n` of them. -/
def chainOf (s : State) (f link : Nat) : Nat → Nat → List Nat
  | 0, _ => []
  | n + 1, a => if a = 0 then [] else a :: chainOf s f link n (ag64 s f (a + link))

/-- An address leaves a chain: what points to it points to the next one. -/
def chainDrop (f ovf link a : Nat) (s : State) : State :=
  match (ovf :: (chainOf s f link 4096 (ag64 s f ovf)).map (· + link)).find? (fun w => ag64 s f w = a) with
  | some w => put64 f w (ag64 s f (a + link)) s
  | none => s

/-- The records that a list in memory reaches: its own 0x210 bytes and the head of its chain (R61, R88). -/
def listReach (s : State) (f at_ ovf : Nat) : List (Nat × Nat) :=
  (at_, 0x210) :: (if (agCause s f at_ 0x210).isSome || ag64 s f ovf = 0 then [] else [(ag64 s f ovf, 256)])

/-- A launch is put on its row: STATE 3, the row or OVF, and KICK of its queue (R61). -/
def putOnBoard (f r : Nat) (s : State) : State :=
  let s := if recLive s f r then s else put32 f (rSTATE r) 3 s
  let row := recRow s f r
  withRecord (actor s f) f row 0x210 (fun s =>
    writeKick f (recQueue s f r) (listPut f (rowEntry row 0) (row + 8) 0xA0 r s)) s

/-- A launch leaves a row (R63). -/
def dropFromRow (f row r : Nat) (s : State) : State :=
  withRecords (actor s f) f (listReach s f row (row + 8)) (listDrop f (rowEntry row 0) (row + 8) 0xA0 r) s

/-- How often a launch stands in a row, and on its chain. -/
def rowCount (s : State) (f row r : Nat) : Nat :=
  if (agCause s f row 0x210).isSome then 0
  else (rowEntries s f row).count r + (chainOf s f 0xA0 4096 (ag64 s f (row + 8))).count r

/-- A closing agent claims past a launch that still stands on its row, and so takes it off (R60, R63): no agent meets it there once
it has closed (R456). DESIGN CHOICE (log 49): the spec does not say who does this. -/
def leaveBoard (f r : Nat) (s : State) : State :=
  let row := recRow s f r
  (List.range (rowCount s f row r)).foldl (fun s _ =>
    let s := (atomAddW f (rNEXT r) 1 s).2
    if (rowEntries s f row).contains r then dropFromRow f row r s else chainDrop f (row + 8) 0xA0 r s) s

/-- Every launch that stands on a function's board. -/
def boardLaunches (s : State) (f : Nat) : List Nat :=
  (([false, true].flatMap (fun st => (List.range 4).map (rowAt s f st))).flatMap (fun row =>
    (rowEntries s f row).filter (· != 0) ++ chainOf s f 0xA0 4096 (ag64 s f (row + 8)))).eraseDups

/-! ## The shape list (R88) -/

def shapePut (f r : Nat) (s : State) : State :=
  withRecord (actor s f) f (specAt s f) 0x210 (listPut f (specAt s f + 0x10) (specAt s f + 8) 0xB8 r) s
/-- A launch leaves the shape list (R103). DESIGN CHOICE (log 113): the overflow chain drains as that of a board row does (R63), its
head moving into the entry that falls free; a launch that stands on the chain is taken out of it. -/
def shapeDrop (f r : Nat) (s : State) : State :=
  withRecords (actor s f) f (listReach s f (specAt s f) (specAt s f + 8)) (fun s =>
    chainDrop f (specAt s f + 8) 0xB8 r (listDrop f (specAt s f + 0x10) (specAt s f + 8) 0xB8 r s)) s
def shapeLaunches (s : State) (f : Nat) : List Nat :=
  if (agCause s f (specAt s f) 0x210).isSome then []
  else (((List.range 64).map (fun i => ag64 s f (specAt s f + 0x10 + 8 * i))).filter (· != 0) ++
    chainOf s f 0xB8 4096 (ag64 s f (specAt s f + 8))).eraseDups

/-! ## Closing (R65, R66, R70, R455) -/

/-- Whether a successor index is valid (R64). -/
def succValid (s : State) (f k : Nat) : Bool := k == 0xFFFF || (k < 4096 && ag64 s f (ltabAt s f + 8 * k) != 0)

/-- The successors of a launch: SUCC0, SUCC1, and the SELECT entry that RESULT names. -/
def successors (s : State) (f r : Nat) : List Nat :=
  let res := ag32 s f (r + 0x30)
  let sel := ag32 s f (r + if res < 2 then 0x2C else 0x34)
  [ag32 s f (r + 0x24) % 65536, ag32 s f (r + 0x28) % 65536] ++
    (if res < 4 then [bits sel (16 * (res % 2) + 15) (16 * (res % 2))] else [])

/-- The launch-table entries that a close reads (R64, R65). -/
def succEntries (s : State) (f r : Nat) : List (Nat × Nat) :=
  ((successors s f r).filter (· < 4096)).map (fun k => (ltabAt s f + 8 * k, 8))

/-- A launch of a queue has ended: its count and its interrupt (R70). -/
def reportQueue (f q field : Nat) (s : State) : State :=
  let h := qHdr s f q
  let s := (atomAddW f (h + field) 1 s).2
  let v := ag32 s f (h + 0x18)
  if bit v 8 then sendIrq (ag32 s f (h + 0x14) % 32) (bits v 7 0) s else s

/-- The final STATE of a launch that closes at a stop point (R66, R408). -/
def finalState (s : State) (f r stop : Nat) : Nat :=
  if ag32 s f (rERROR r) != 0 then 7
  else if stop = ag32 s f (rNTEAM r) && ag32 s f (rNSAVED r) = 0 then 6 else 5

/-- Steps 1 to 3 of R455. -/
def writeFinal (f r stop : Nat) (s : State) : State :=
  let s := put32 f (rDONE r) stop (put32 f (rNEXT r) stop s)
  let s := if stop = ag32 s f (rNTEAM r) && !(successors s f r).all (succValid s f) then
      (casW f (rERROR r) 0 cLaunchRange s).2 else s
  put32 f (rSTATE r) (finalState s f r stop) s

/-- A close is claimed by the bit STOPAT[31], so that exactly one agent closes (R106, R408): none where it was set. -/
def claimClose (f r : Nat) (s : State) : Option State :=
  let (old, s) := atomOrW f (rSTOPAT r) 0x80000000 s
  if bit old 31 then none else some s

/-- CloseCheck (R106), `close` being R66's close at a stop point. A launch that does not stand at STATE 3 or 4 has not begun, or
has closed. -/
def closeCheckBy (close : Nat → State → State) (f r : Nat) (s : State) : State :=
  if !recSettled s f r || !recLive s f r then s
  else
    let d := ag32 s f (rDONE r)
    let stop := if bit d 31 then ag32 s f (rSTOPAT r) % 2 ^ 31 else ag32 s f (rNTEAM r)
    if ag32 s f (rLIVEP r) = 0 && d % 2 ^ 31 = stop && (bit d 31 || ag32 s f (rNSAVED r) = 0) then
      match claimClose f r s with
      | some s => close stop s
      | none => s
    else s

/-- A close of R66 of a launch that is not speculative, by the agent that claims it (R408). -/
def closeOnce (close : Nat → State → State) (f r stop : Nat) (s : State) : State :=
  match claimClose f r s with
  | some s => close stop s
  | none => s

/-- The drain of a launch (R67): NEXT is marked, STOPAT and STATE 4 written, DONE marked; DRAINLIM begins to run (R407). -/
def drainBy (close : Nat → State → State) (core f r : Nat) (s : State) : State :=
  let (n, s) := atomOrW f (rNEXT r) 0x80000000 s
  if bit n 31 || recNteam s f r ≤ n then s
  else
    let s := put32 f (rSTATE r) 4 (put32 f (rSTOPAT r) n s)
    let (d, s) := atomOrW f (rDONE r) 0x80000000 s
    let lim := (s.fcsr f 0x060).toNat
    let s := if lim = 0 then s else dueIn core f lim (.saveNow core f r) s
    if d = n then (if recSpec s f r then closeCheckBy close f r s else closeOnce close f r n s) else s

/-- An admitted launch whose predecessors have ended: the board, or its end where it has no team (R53, R54, R90). A launch whose
settlement failed before it stood at STATE 3 meets R67 here (R103, log 114). -/
def placeBy (close : Nat → State → State) (f r : Nat) (s : State) : State :=
  if recNteam s f r = 0 && !recSpec s f r then close 0 s
  else if recNteam s f r = 0 && recSettled s f r then closeCheckBy close f r (put32 f (rSTATE r) 3 s)
  else
    let failed := recSpec s f r && recSettled s f r && ag32 s f (rERROR r) != 0
    let s := putOnBoard f r s
    if failed then drainBy close (actor s f) f r s else s

/-- Releases the successor with index k (R64): the last of its predecessors places it. -/
def releaseBy (place : Nat → State → State) (f k : Nat) (s : State) : State :=
  if k = 0xFFFF then s
  else withRecord (actor s f) f (ltabAt s f + 8 * k) 8 (fun s =>
    let x := ag64 s f (ltabAt s f + 8 * k) % 2 ^ 56
    withRecord (actor s f) f x 256 (fun s =>
      let (old, s) := atomDecW f (rDEPS x) s
      if old = 1 then place x (put32 f (rSTATE x) 1 s) else s) s) s

/-- The steps that wait on the drain bound of a launch go when it closes (R407, R456). -/
def dropSaveNow (f r : Nat) (s : State) : State :=
  { s with agenda := s.agenda.filter (fun d => match d.instr with
      | .saveNow _ g x => !(g = f && x = r)
      | _ => true) }

/-- The close of a launch (R455), which may place its successors and close them in turn, `n` deep. RESULT is read as an acquire
of what its poster wrote (R65, R377). -/
def closeLaunch : Nat → Nat → Nat → Nat → State → State
  | 0, _, _, _, s => s
  | n + 1, f, r, stop, s =>
    let s := leaveBoard f r (pullLine s ((r + 0x30) / 64))
    withReads (actor s f) (if stop = ag32 s f (rNTEAM r) then succEntries s f r else []) (fun s =>
      let s := dropSaveNow f r (writeFinal f r stop s)
      let st := recState s f r
      let q := recQueue s f r
      let s := if st = 6 then (successors s f r).foldl (fun s k =>
        releaseBy (fun x s => placeBy (closeLaunch n f x) f x s) f k s) s else s
      reportQueue f q (if st = 7 then 0x24 else 0x20) s) s

/-- Launches that can close in one chain: no more than the launch table names. -/
def closeDepth : Nat := 4097

def closeCheck (f r : Nat) (s : State) : State := closeCheckBy (closeLaunch closeDepth f r) f r s
def placeReady (f r : Nat) (s : State) : State := placeBy (closeLaunch closeDepth f r) f r s
def releaseSucc (f k : Nat) (s : State) : State := releaseBy (placeReady f) f k s
def drainLaunch (core f r : Nat) (s : State) : State := drainBy (closeLaunch closeDepth f r) core f r s

/-! ## Settling (R103), stopping (R67, R407) and failing (R69) -/

/-- A shape at its site (R103). -/
def recordSite (f r t : Nat) (s : State) : State :=
  let e := specAt s f + 0x400 + 16 * (ag32 s f (r + 0x40) % 65536)
  withRecord (actor s f) f e 16 (fun s =>
  let s := (atomW f (e + 4) (fun m => max m t) (put32 f e t s)).2
  (atomW f (e + 8) (fun u => min (u + 1) 0xFFFFFFFF) s).2) s

/-- The tail of a settled launch (R103, R108): a ticket from P on that was given back is handed out again (log 106), and a launch on
the board goes on its row once more. -/
def openTail (f r : Nat) (s : State) : State :=
  let s := if ag32 s f (rNEXT r) < 0x80000000 then put32 f (rNEXT r) (min (ag32 s f (rNEXT r)) (ag32 s f (rPREDN r))) s else s
  if recLive s f r then putOnBoard f r s else s

/-- Settlement (R103). -/
def settle1 (core f r : Nat) (failing : Bool) (s : State) : State :=
  let (old, s) := atomOrW f (rSPECST r) 1 s
  if bit old 0 then s
  else
    let t := ag32 s f (rSHAPEV r)
    let floor := ag32 s f (rFLOOR r)
    let bad := 0x7FFFFFFF < t || t < floor
    let n := if failing || bad then floor else t
    let s := if failing then s
      else if bad then (casW f (rERROR r) 0 cShapeValue s).2 else recordSite f r t s
    let s := put32 f (rNTEAM r) n s
    let s := if ag32 s f (rPREDN r) < n then openTail f r s else s
    let s := (atomOrW f (rSPECST r) 2 (shapeDrop f r s)).2
    let s := writeKick f (recQueue s f r) s
    let s := if recState s f r = 3 && (ag32 s f (rERROR r) != 0 || recStop s f r) then drainLaunch core f r s else s
    closeCheck f r s

/-- A stop request met on a claim or on a KICK (R67, R103). -/
def stopLaunch (core f r : Nat) (s : State) : State :=
  if recState s f r != 3 || !recStop s f r then s
  else if recSpec s f r && !recSettled s f r then
    (if ag32 s f (rSHAPEV r) = 0xFFFFFFFF then s else settle1 core f r false s)
  else drainLaunch core f r s

/-- The team field of ERROR (R403). -/
def errorWord (idx cause : Nat) : Nat := min idx 0x7FFFFF * 512 + cause

/-- TEAM_FAILURE (R69). -/
def teamFailure (core f r idx cause : Nat) (s : State) : State :=
  let (ok, s) := casW f (rERROR r) 0 (errorWord idx cause) s
  if !ok then s
  else
    let s := if recSpec s f r && !recSettled s f r then settle1 core f r true s else s
    if recState s f r = 3 then drainLaunch core f r s else s

/-! ## Retiring (R66, R408) -/

/-- The add on DONE of R66, and the close where this is the last. -/
def countDone (f r : Nat) (s : State) : State :=
  let (d, s) := atomAddW f (rDONE r) 1 s
  if recSpec s f r then closeCheck f r s
  else if bit d 31 then
    (if d % 2 ^ 31 + 1 = ag32 s f (rSTOPAT r) % 2 ^ 31 then closeOnce (closeLaunch closeDepth f r) f r (d % 2 ^ 31 + 1) s else s)
  else if d + 1 = recNteam s f r && ag32 s f (rNSAVED r) = 0 then closeOnce (closeLaunch closeDepth f r) f r (d + 1) s
  else s

/-- The end of a team restored under SAVENOW (R408). -/
def countRestored (f r : Nat) (s : State) : State :=
  let (n, s) := atomDecW f (rNSAVED r) s
  if n = 1 && ag32 s f (rDONE r) % 2 ^ 31 = recNteam s f r && recLive s f r then
    closeOnce (closeLaunch closeDepth f r) f r (recNteam s f r) s
  else s

/-! ## Provisional teams at settlement (R104, R107) -/

/-- LIVEP −1, then CloseCheck. -/
def dropLive (f r : Nat) (s : State) : State := closeCheck f r (atomDecW f (rLIVEP r) s).2

/-- A squashed team's chunk counts as retracted (R99). -/
def retractChunk (core f r x : Nat) (s : State) : State :=
  if (chunkOf s core f r x).isNone then s
  else match poolHeader s core f r with
    | some h => if hTarget h = 3 then countFlits s
      else homeWrite 0 ((span (h + 8) 4).zip (leBytes 4 (leNat (readBytes s.mem (h + 8) 4) + 1))) s
    | none => s

/-- The lines an ended provisional team holds reach their homes, and what lies outside is sent (R97, R451 steps 3 and 4). -/
def commitHeld (lower slot : Nat) (s : State) : State :=
  let t := s.team lower slot
  (teamCores lower t).foldl (fun s c => writeBackTeam c (teamKey lower slot) s) (commitHamper lower slot s)

/-- Such a team is confirmed: its slot is free. The frame of a kept failure stays for the agent to read (R107), until the slot's next
team. -/
def commitEnded (lower slot : Nat) (s : State) : State := leaveSlot lower slot false (commitHeld lower slot s)

/-- Whether a team is provisional here, and not on its way to its end. -/
def provHere (t : Team) : Bool := t.status != .free && t.prov && (t.status != .ending || t.endedProv)

/-- CONFIRM (R107): the result, and the state after it. -/
def confirmTeam (lower slot : Nat) (s : State) : Nat × State :=
  let t := s.team lower slot
  if !provHere t then (1, s)
  else if t.endedProv then (if t.kept = 0 then 2 else 3, commitEnded lower slot s)
  else
    let s := commitHamper lower slot s
    (0, s.setTeam lower slot { s.team lower slot with prov := false })

/-- What SQUASH does at once (R107): an ended team is gone; a running one is brought to its end. -/
def squashTeam (lower slot : Nat) (byAgent : Bool) (s : State) : Nat × State :=
  let t := s.team lower slot
  if !provHere t then (1, s)
  else if t.endedProv then (if t.kept = 0 then 2 else 3, freeTeam lower slot false (dropHamper lower slot s))
  else (0, endTeam lower slot .squash (s.setTeam lower slot { t with byAgent := byAgent }))

/-- One provisional team of a settled launch (R104). The accounts of a squashed running team follow its end; a confirmed team that has
ended waits for the answers to its stores (R451 step 4). -/
def settleTeam (lower slot : Nat) (s : State) : State :=
  let t := s.team lower slot
  let f := t.f
  let r := t.record
  let s := if t.endedProv && t.idx < recNteam s f r then commitHeld lower slot s else s
  if t.endedProv && t.idx < recNteam s f r && !storesAnswered s lower slot then s.due [retireDue lower slot t true]
  else if t.idx < recNteam s f r then
    match confirmTeam lower slot s with
    | (0, s) => dropLive f r s
    | (2, s) => dropLive f r (countDone f r s)
    | (3, s) => dropLive f r (countDone f r (teamFailure lower f r t.idx t.kept s))
    | (_, s) => s
  else match squashTeam lower slot true s with
    | (0, s) => s
    | (1, s) => s
    | (_, s) => dropLive f r (retractChunk lower f r t.idx s)

/-- Every provisional team of a function whose launch is settled (R104). -/
def settleTeams (f : Nat) (s : State) : State :=
  (s.teams.filter (fun t => t.2.f == f && provHere t.2)).foldl (fun s t =>
    if recSettled s f t.2.record then settleTeam (t.1 / 16) (t.1 % 16) s else s) s

end Sys2Proof.Machine
end

