-- ==== Sys2Proof/Machine/Loader.lean ====
section
/-! DEFINITION. Machine/Loader.lean: the loader (R26 to R28, R50): the checks of a kernel against a target profile and the
refusal record. -/

namespace Sys2Proof.Machine

/-! ## What a profile contains (R21, R22) -/

/-- Whether the map assigns a word's major and minor (R161, R162). -/
def wordAssigned (w : Word) : Bool :=
  match decodeFields w [0, 0, 0, 0, 0] with
  | .ok (.unassignedEncoding _) => false
  | .ok (.tgt _) => false
  | _ => true

/-- Whether a profile (0 C, 1 C-M, 2 S, 3 L) contains the instruction of a word. -/
def profileHas (p : Nat) (w : Word) : Bool :=
  let m := (fM w).toNat
  let n := minorOf w
  let old := (m = 0x14 && (n = 25 || n = 26)) || (m = 0x18 && n = 13)
  wordAssigned w &&
  match p with
  | 0 => m != 0x36 && !old
  | 1 => m != 0x36 && m != 0x1D && !old
  | 2 => !absentS.contains m && !old
  | _ => m != 0x07 && !absentL.contains m && !(m = 0 && n = 9)

/-- The profiles that contain the instruction, as PROFILES[3:0]. -/
def profileMask (w : Word) : Nat :=
  ((List.range 4).map (fun p => if profileHas p w then 2 ^ p else 0)).sum

/-- KIND of a refusal entry (R28); the profiles of this part are C, S and L. -/
def wordKind (w : Word) : Nat :=
  let m := profileMask w
  if m = 0 then 3 else if m &&& 0xD = 0 then 1 else 2

/-- The Welell major and minor a profile implements (R21). -/
def profileVersion (p : Nat) : Option (Nat × Nat) :=
  if p < 3 then some (3, 2) else if p = 3 then some (2, 4) else none

/-! ## Words of the code region (R27) -/

/-- Words an instruction takes: BRX with its targets, MOVL with its literal. -/
def wordLength (w : Word) : Nat :=
  if (fM w).toNat = 0x02 then bits w.toNat 9 8 + 3
  else if (fM w).toNat = 0x0A then 2 else 1

/-- A stand-alone TGT word and the fill word are accepted. -/
def toleratedWord (w : Word) : Bool :=
  w == 0xFFFFFFFF || (match decodeFields w [] with
    | .ok (.tgt _) => true
    | _ => false)

/-- The words that begin an instruction, with their index; `skip` words still belong to the one before. -/
def leadWords : Nat → Nat → List Word → List (Nat × Word)
  | _, _, [] => []
  | skip + 1, i, _ :: r => leadWords skip (i + 1) r
  | 0, i, w :: r => (i, w) :: leadWords (wordLength w - 1) (i + 1) r

/-! ## The checks (R26) -/

/-- A kernel as the loader finds it. -/
structure LoadView where
  object : Nat
  kernel : Nat
  target : Nat
  desc : Nat
  /-- The load record holds a nonzero reserved byte. -/
  spare : Bool
  osize : Nat
  codeSize : Nat
  words : List (Nat × Word)
  deriving DecidableEq, Repr

/-- Segments landed before the start share no slot (R132). -/
def slotsClash (k : Kernel) : Bool := !((k.startSegs.map k.slotOf).Nodup)

def badMagic (s : State) (f : Nat) (v : LoadView) : Bool :=
  ag32 s f v.object != 0x4A424F57 || ag16 s f (v.object + 4) != 1

def badVersion (s : State) (f : Nat) (v : LoadView) : Bool :=
  let ver := ag16 s f (v.desc + 4)
  match profileVersion v.target with
  | none => true
  | some (ma, mi) => ver / 256 != ma || mi < ver % 256

/-- Reason LAYOUT (R13, R14, R19, R132). DESIGN CHOICE (log 109): an OBJECT that R50 does not allow, because it is not a multiple
of 4,096, breaks LAYOUT too. -/
def badLayout (s : State) (f : Nat) (v : LoadView) : Bool :=
  let o := v.object
  let d := v.desc
  let k := readKernel s f o d
  let nk := ag16 s f (o + 6)
  let ktab := ag32 s f (o + 8)
  let dataOff := ag32 s f (o + 0x0C)
  let segtab := ag32 s f (d + 0x18)
  let name := ag32 s f (d + 0x2C)
  o % 4096 != 0 || nk = 0 || 256 < nk || ktab % 64 != 0 || v.osize < ktab + 64 * nk || v.osize < 64 ||
    dataOff % 64 != 0 || (dataOff != 0 && v.osize < dataOff + ag32 s f (o + 0x10)) ||
    k.scratch % 16 != 0 || k.entry % 4 != 0 || v.codeSize % 4 != 0 || v.codeSize < 4 || 262144 < v.codeSize ||
    k.codeOff % 4096 != 0 || v.osize < k.codeOff + v.codeSize || v.osize < segtab + 4 * k.nseg ||
    k.nseg != (v.codeSize + 4095) / 4096 || v.codeSize ≤ k.entry ||
    v.codeSize ≤ k.handler || (name != 0 && v.osize ≤ name) ||
    k.segs.any (fun e => 64 ≤ bits e 7 0 && bits e 7 0 ≤ 254) || slotsClash k

/-- The SETW words that break R16. -/
def setwBreaks (k : Kernel) (v : LoadView) : List (Nat × Word) :=
  v.words.filter (fun w => (fM w.2).toNat = 0x07 && bits w.2.toNat 2 0 != bits k.header 2 0)

/-- R24 broken. -/
def classBreaks (s : State) (f : Nat) (v : LoadView) (k : Kernel) : Bool :=
  let ver := ag16 s f (v.desc + 4)
  let prof := ag16 s f (v.desc + 6)
  let narrow := bits k.header 1 0 < 2
  (ver / 256 = 2 && !(k.w16 && prof = 8 && narrow && !bit k.header 4 && !bit k.header 5 && bits k.header 15 9 = 0)) ||
    (ver / 256 = 3 && (k.w16 || bit prof 3)) || (bit prof 2 && !narrow)

/-- Reason HEADER, but for R16: reserved bits and R24. DESIGN CHOICE (log 108): a HANDLER inside the code region that R14 wants to
be zero, HEADER[16] being clear, breaks HEADER. DESIGN CHOICE (log 110): so does a reserved byte of the load record. -/
def badHeader (s : State) (f : Nat) (v : LoadView) : Bool :=
  let k := readKernel s f v.object v.desc
  let zero : Nat → Nat → Bool := fun a n => (agBytes s f a n).all (· == 0)
  v.spare || !zero (v.object + 0x18) 40 || !zero (v.desc + 0x1E) 2 || !zero (v.desc + 0x30) 16 ||
    bits (ag16 s f (v.desc + 6)) 15 4 != 0 || bits k.header 31 17 != 0 || (!bit k.header 16 && k.handler != 0) ||
    k.segs.any (fun e => bits e 31 9 != 0) || classBreaks s f v k

/-- Words that are no instruction of the target. -/
def offending (v : LoadView) : List (Nat × Word) :=
  v.words.filter (fun w => !profileHas v.target w.2 && !toleratedWord w.2)

/-- Reason RESOURCE. -/
def badResource (s : State) (f : Nat) (v : LoadView) : Bool :=
  (if v.target = 2 then 131072 else 524288) < ag32 s f (v.desc + 0x0C) || 64 < ag32 s f (v.desc + 0x28)

/-- The reason of R26, and the words it lists. -/
def loadReason (s : State) (f : Nat) (v : LoadView) : Nat × List (Nat × Word) :=
  let k := readKernel s f v.object v.desc
  if badMagic s f v then (1, [])
  else if ag16 s f (v.object + 6) ≤ v.kernel then (3, [])
  else if ag32 s f v.desc != 0x314B4C57 then (1, [])
  else if badVersion s f v then (2, [])
  else if badLayout s f v then (3, [])
  else if badHeader s f v || !(setwBreaks k v).isEmpty then (4, setwBreaks k v)
  else if !(offending v).isEmpty then (5, offending v)
  else if !bit (ag16 s f (v.desc + 6)) v.target then (6, [])
  else if badResource s f v then (7, [])
  else (0, [])

/-- The view of the load record at `r` (R50); the code region is read no further than R14 lets it be. -/
def loadView (s : State) (f r : Nat) : LoadView :=
  let object := ag64 s f (r + 8)
  let kernel := ag32 s f (r + 0x10)
  let target := ag32 s f (r + 4)
  let desc := object + ag32 s f (object + 8) + 64 * kernel
  let size := ag32 s f (desc + 0x14)
  let code := object + ag32 s f (desc + 0x20)
  { object := object, kernel := kernel, target := target, desc := desc, spare := (agBytes s f (r + 0x20) 32).any (· != 0),
    osize := ag32 s f (object + 0x14), codeSize := size,
    words := leadWords 0 0 ((List.range (min size 262144 / 4)).map (fun i => word (ag32 s f (code + 4 * i)))) }

/-! ## The refusal record (R28) -/

/-- The majors whose words have a minor field: F, F2 or OP (R162). -/
def minorMajors : List Nat :=
  [0x00, 0x10, 0x13, 0x14] ++ span 0x16 8 ++ [0x20, 0x21, 0x29, 0x2A, 0x2C, 0x30, 0x32, 0x33, 0x34, 0x36, 0x38, 0x39, 0x3C]

/-- OPCODE of an entry: the minor is zero for a format without one. -/
def refusalOpcode (w : Word) : Nat :=
  let m := (fM w).toNat
  1024 * m + 32 * (if minorMajors.contains m then minorOf w else 0)

/-- One entry. A SETW that breaks R16 can be an instruction of its target: the spec gives no KIND for it then. -/
def refusalEntry (target : Nat) (w : Nat × Word) : List Byte :=
  leBytes 4 (4 * w.1) ++ leBytes 2 (refusalOpcode w.2) ++ leBytes 1 (profileMask w.2) ++
    (if profileHas target w.2 then [Config.freeByte 3 w.1] else leBytes 1 (wordKind w.2))

/-- Header and entries. -/
def refusalBytes (reason kernel target capacity : Nat) (ws : List (Nat × Word)) : List Byte :=
  leBytes 4 (if reason = 0 then 0 else 1) ++ leBytes 4 reason ++ leBytes 4 kernel ++ leBytes 4 target ++
    leBytes 4 ws.length ++ leBytes 4 (min ws.length capacity) ++ leBytes 4 capacity ++ leBytes 4 0 ++
    (ws.take capacity).flatMap (refusalEntry target)

/-- What the loader reads of an object, as far as its checks let it go on: the header, the descriptor, and what lies inside a
good layout. -/
def loadReads (s : State) (f : Nat) (v : LoadView) : List (Nat × Nat) :=
  (v.object, 64) ::
    (if badMagic s f v || ag16 s f (v.object + 6) ≤ v.kernel then []
    else (v.desc, 64) :: (if badLayout s f v then []
      else [(v.object + ag32 s f (v.desc + 0x20), v.codeSize), (v.object + ag32 s f (v.desc + 0x18), 4 * ag16 s f (v.desc + 0x1C))]))

/-- A load record is answered (R50). DESIGN CHOICE (log 111): a REFUSAL that is not a multiple of 8 is used as it stands. -/
def doLoad (core f q r : Nat) (s : State) : State :=
  let v := loadView s f r
  let (reason, ws) := loadReason s f v
  let answer := refusalBytes reason v.kernel v.target (ag32 s f (r + 0x14)) ws
  let buffer := ag64 s f (r + 0x18)
  withReads core (loadReads s f v) (withRecord core f buffer answer.length (fun s =>
    let s := agPut f buffer answer s
    let fn := s.func f
    let others := fn.loaded.filter (fun l => !(l.1 == v.desc && l.2.1 == v.target))
    let s := if reason = 0 then s.setFunc f { fn with loaded := (v.desc, v.target, v.object) :: others } else s
    reportQueue f q 0x20 (put32 f r 1 s))) s

end Sys2Proof.Machine
end

