-- ==== Sys2Proof/Machine/Launch.lean ====
section
/-! DEFINITION. Machine/Launch.lean: queues (R46 to R49), admission (R53, R54, R68, R87 to R91), load records (R50), the
settlement step (R90, R91, R103), and SQUASH and CONFIRM (R107). -/

namespace Sys2Proof.Machine

/-! ## Queues -/

/-- Whether a function's queues run: the device is in service and the function not in ERROR (R443, R466). -/
def queuesRun (s : State) (f : Nat) : Bool := s.power == .service && (s.func f).enabled && (s.func f).tdisp != .error && s.fcsr64 f 0x0D0 != 0

/-- The address of a queue's next entry (R47). -/
def entryAt (s : State) (f q : Nat) : Nat :=
  let h := qHdr s f q
  ag64 s f (h + 8) + 8 * (ag32 s f (h + 4) % ag32 s f (h + 0x10))

/-- Whether a reserved bit of a queue header is set: FUNC[31:5], VECTOR[31:9], or a byte from 0x30 on (R46). -/
def headerReserved (s : State) (f q : Nat) : Bool :=
  let h := qHdr s f q
  bits (ag32 s f (h + 0x14)) 31 5 != 0 || bits (ag32 s f (h + 0x18)) 31 9 != 0 || (agBytes s f (h + 0x30) 16).any (· != 0)

/-- The next entry of a queue (R47, R49): none where nothing is published, the header is rejected or the queue has stopped. -/
def nextEntry (s : State) (f q : Nat) : Option Nat :=
  let h := qHdr s f q
  let tail := ag32 s f h
  let head := ag32 s f (h + 4)
  let size := ag32 s f (h + 0x10)
  if !queuesRun s f || tail = head || ag32 s f (h + 0x1C) != 0 || size < (tail + 2 ^ 32 - head) % 2 ^ 32 || headerReserved s f q then none
  else some (ag64 s f (entryAt s f q))

/-- An entry is taken: HEAD moves past it. -/
def takeEntry (f q : Nat) (s : State) : State := (atomAddW f (qHdr s f q + 4) 1 s).2

/-- The step an entry asks for. DESIGN CHOICE (log 112): a reserved bit of an entry stops the queue as another KIND does. -/
def entryStep (core f q e : Nat) : Option Due :=
  match e / 2 ^ 56 with
  | 0 => some (fw core f (.admission core f q))
  | 16 => some (fw core f (.loadRecord core f q))
  | _ => none

/-- A queue is looked at: the step that takes its next entry is due; an overrun or an entry of another KIND stops it. An agent
that cannot reach the header or the ring stops (R265, R474). DESIGN CHOICE (log 126): a header with a reserved bit set is rejected
(R4) through QSTATUS[1], the header's error field, with no entry taken; a SIZE that is no power of two from 16 to 65,536 and a
BASE that is not aligned are used as they stand; an overrun of a queue that has stopped already does not set QSTATUS[0]. -/
def lookAtQueue (core f q : Nat) (s : State) : State :=
  let h := qHdr s f q
  if !queuesRun s f then s
  else withRecord core f h 64 (fun s =>
    let ran := ag32 s f (h + 0x10) < (ag32 s f h + 2 ^ 32 - ag32 s f (h + 4)) % 2 ^ 32
    if ag32 s f (h + 0x1C) = 0 && ran then (atomOrW f (h + 0x1C) 1 s).2
    else if ag32 s f (h + 0x1C) = 0 && ag32 s f h != ag32 s f (h + 4) && headerReserved s f q then (atomOrW f (h + 0x1C) 2 s).2
    else match nextEntry s f q with
      | none => s
      | some e => withReads core [(entryAt s f q, 8)] (fun s =>
        match entryStep core f q e with
        | some d => s.due [d]
        | none => (atomOrW f (h + 0x1C) 2 (takeEntry f q s)).2) s) s

/-- TAIL (R49): the write wakes the function's agents. -/
def tailEvent (f q : Nat) (value : Word) (s : State) : State :=
  if !driverMay s f || s.power != .service || !(s.func f).enabled then s
  else lookAtQueue (leadCore s f) f q (put32 f (qHdr s f q) value.toNat s)

def execTail (f q : Nat) (value : Word) (s : State) : Host.Outcome State Fault Refusal := event (tailEvent f q value) s

/-! ## Checks of a record -/

/-- The first check of R54 that fails; of a template (R75) the fields that agents ignore are not looked at.
The reserved word 0x54 is looked at with the reserved bits that R54 lists (R4). -/
def recordCause (s : State) (f own r : Nat) (template : Bool) : Option Nat :=
  let w := fun o => ag32 s f (r + o)
  let stack := bit (w 4) 4
  let noStack := [0x105, 0x106, 0x107, 0x108].all (fun n => s.fcsr f n == 0)
  if w 0x4C % 32 != own then some cSliceViolation
  else if bits (w 0) 31 3 != 0 || bits (w 4) 31 5 != 0 || bits (w 0x4C) 31 5 != 0 || w 0x54 != 0 ||
      (!template && (bits (w 0x24) 31 16 != 0 || bits (w 0x28) 31 16 != 0 || bits (w 0x40) 31 24 != 0)) then some cReserved
  else if (kernelFor s f r (targetOn (if stack then 512 else 0) (ag32 s f (recKernel s f r + 8)))).isNone then
    some cKernelUnloaded
  else if w 0x14 = 0 || (if stack then 1024 else 2048) < w 0x14 || (!template && 0x7FFFFFFF < w 0x10) ||
      (stack && noStack) then some cLaunchRange
  else none

/-- Whether a pool header passes R99. -/
def poolOk (s : State) (core f r : Nat) : Bool :=
  let p := ag64 s f (rSCRATCH r)
  p = 0 || p % 4096 = 0 && (poolHeader s core f r).any (fun h =>
    let chunk := leNat (poolBytes s h 4)
    chunk % 4096 = 0 && 4096 ≤ chunk && chunk ≤ 2 ^ 30 && 1 ≤ leNat (poolBytes s (h + 4) 4) &&
      (poolBytes s (h + 0x0C) 52).all (· == 0))

/-- The first check of R87 that fails. -/
def specCause (s : State) (core f r : Nat) : Option Nat :=
  let k := ag32 s f (recKernel s f r + 8)
  let sa := ag64 s f (r + 0x38)
  let pred := ag32 s f (r + 0x40)
  let v := ag32 s f (rSHAPEV r)
  if !bit k 5 then some cLaunchRange
  else if sa % 4 != 0 || hTarget sa != 1 || agentRangeBad s sa 4 || t1Owner s (hAddr sa) != some f then some cLaunchRange
  else if ag32 s f (specAt s f) ≤ pred % 65536 || 3 < bits pred 19 16 then some cLaunchRange
  else if 0x7FFFFFFF < ag32 s f (rFLOOR r) then some cLaunchRange
  else if !poolOk s core f r then some cLaunchRange
  else if v != 0xFFFFFFFF && 0x7FFFFFFF < v then some cShapeValue
  else none

/-- The prediction P (R89). -/
def prediction (s : State) (f r : Nat) : Nat :=
  let pred := ag32 s f (r + 0x40)
  let e := specAt s f + 0x400 + 16 * (pred % 65536)
  let last := ag32 s f e
  let pol := bits pred 19 16
  let p := if pol = 3 || ag32 s f (e + 8) = 0 then recNteam s f r
    else if pol = 0 then last
    else if pol = 1 then ag32 s f (e + 4)
    else last + (last * bits pred 23 20 + 7) / 8
  min (max p (ag32 s f (rFLOOR r))) 0x7FFFFFFF

/-! ## Speculative launches -/

/-- Step 1 of R90: a posted shape word becomes SHAPEV. Its read is an acquire of what its poster wrote (R101, R383). -/
def learnShape (f r : Nat) (s : State) : State :=
  let a := ag64 s f (r + 0x38)
  let s := if ag32 s f (rSHAPEV r) = 0xFFFFFFFF then pullLine s (a / 64) else s
  let w := ag32 s f a
  if ag32 s f (rSHAPEV r) = 0xFFFFFFFF && w != 0xFFFFFFFF then (casW f (rSHAPEV r) 0xFFFFFFFF w s).2 else s

/-- Step 1 of R90 and R103 for a launch on the shape list. -/
def settleIfKnown (core f r : Nat) (s : State) : State :=
  let s := learnShape f r s
  if ag32 s f (rSHAPEV r) = 0xFFFFFFFF then s else settle1 core f r false s

/-- R90: a known shape settles the launch; otherwise it runs on its prediction and stands on the shape list. -/
def admitSpec (core f r : Nat) (s : State) : State :=
  let s := learnShape f r s
  let v := ag32 s f (rSHAPEV r)
  if v != 0xFFFFFFFF then settle1 core f r false (put32 f (rNTEAM r) v (put32 f (rPREDN r) v s))
  else
    let p := prediction s f r
    let s := shapePut f r (put32 f (rNTEAM r) p (put32 f (rPREDN r) p s))
    let line := hAddr (ag64 s f (r + 0x38)) / 64
    { s with watch := if s.watch.contains line then s.watch else s.watch ++ [line] }

/-! ## Admission -/

/-- A launch that fails at admission is closed at once (R54, R69). -/
def refuseLaunch (f r cause : Nat) (s : State) : State :=
  closeLaunch closeDepth f r 0 (put32 f (rERROR r) cause s)

/-- A launch entry (R53). -/
def admitLaunch (core f q r : Nat) (s : State) : State :=
  let st := recState s f r
  if (s.func f).tdisp == .locked || !(st == 1 || st == 2) then (atomAddW f (qHdr s f q + 0x2C) 1 s).2
  else
    let s := put32 f (rQUEUE r) q s
    match recordCause s f (ag32 s f (qHdr s f q + 0x14) % 32) r false with
    | some c => refuseLaunch f r c s
    | none =>
      match (if recSpec s f r then specCause s core f r else none) with
      | some c => refuseLaunch f r c s
      | none =>
        let s := if ag32 s f (rSTOPAT r) != 0 || ag32 s f (rPREEMPT r) != 0 then
            put32 f (rPREEMPT r) 0 (put32 f (rSTOPAT r) 0 s) else s
        let s := if recSpec s f r then admitSpec core f r s else s
        if st = 1 then placeReady f r s
        else
          let (d, s) := atomDecW f (rDEPS r) s
          if d = 1 then placeReady f r (put32 f (rSTATE r) 1 s) else s

/-- The entry a step takes, if it is of the step's kind. DESIGN CHOICE (log 111): a record address that is not aligned as R47 says
is used as it stands. -/
def takeKind (kind core f q len : Nat) (act : Nat → State → State) (s : State) : State :=
  match nextEntry s f q with
  | none => s
  | some e =>
    if e / 2 ^ 56 = 16 * kind then
      let r := e % 2 ^ 56
      lookAtQueue core f q (withRecord core f r len (act r) (takeEntry f q s))
    else s

/-- ADMISSION (R53). -/
def execAdmission (core f q : Nat) (s : State) : Host.Outcome State Fault Refusal :=
  event (takeKind 0 core f q 256 (admitLaunch core f q)) s

/-- LOAD_RECORD (R50). -/
def execLoadRecord (core f q : Nat) (s : State) : Host.Outcome State Fault Refusal :=
  event (takeKind 1 core f q 64 (doLoad core f q)) s

/-! ## SETTLEMENT -/

/-- The launches on the shape list whose SHAPEADDR lies in a line of shared memory (R91). -/
def lineLaunches (s : State) (f line : Nat) : List Nat :=
  (shapeLaunches s f).filter (fun r => hAddr (ag64 s f (r + 0x38)) / 64 = line)

/-- SETTLEMENT (R103): the launch named, or, where a watched line has changed, every launch that it may settle (R91). -/
def settlementEvent (core f r : Nat) (s : State) : State :=
  let line := fwArg s 0
  let s := takeAll f 4 s
  (if r = 0 then lineLaunches s f line else [r]).foldl (fun s r => settleIfKnown core f r s) s

def execSettlement (core f rec : Nat) (s : State) : Host.Outcome State Fault Refusal :=
  event (settlementEvent core f rec) s

/-! ## SQUASH and CONFIRM -/

/-- The team that sA and sB name, if it was started on the executing agent's core (R107). -/
def namedTeam (r : SysxArgs) (e : Env) (s : State) : Option (Nat × Nat) :=
  (findTeam s (servedBy s e.core) (pairAddr e r.a.toNat) (e.ctx.readS r.b.toNat).toNat).filter (fun t => t.1 == e.core)

/-- CONFIRM (R107); a team on its way to its end is waited for, and the answers to the stores of one that has ended (R451 step 4). -/
def confirmBody (r : SysxArgs) (e : Env) (s : State) : Eff :=
  sysxNeeds r e s (match namedTeam r e s with
    | none => .done 1 (putS e r.d.toNat 1 s)
    | some (c, sl) =>
      let t := s.team c sl
      let s := if t.prov && t.endedProv then commitHeld c sl s else s
      if t.prov && t.status == .ending && (!t.endedProv || !storesAnswered s c sl) then .wait s
      else
        let (v, s) := confirmTeam c sl s
        .done 1 (putS e r.d.toNat (word v) s))

def execConfirm (r : SysxArgs) (s : State) : Host.Outcome State Fault Refusal := run (gSysx 9) (confirmBody r) s

/-- SQUASH (R107): it completes when the team's operations have ended and all it held is free. -/
def squashBody (r : SysxArgs) (e : Env) (s : State) : Eff :=
  sysxNeeds r e s (match e.ctx.progress.started, namedTeam r e s with
    | true, some _ => .wait s
    | true, none => .done 1 (putS e r.d.toNat 0 s)
    | false, none => .done 1 (putS e r.d.toNat 1 s)
    | false, some (c, sl) =>
      let t := s.team c sl
      if t.prov && t.status == .ending && !t.endedProv then .wait s
      else match squashTeam c sl false s with
        | (0, s) => .wait (putProgress e { started := true } s)
        | (v, s) => .done 1 (putS e r.d.toNat (word v) s))

def execSquash (r : SysxArgs) (s : State) : Host.Outcome State Fault Refusal := run (gSysx 8) (squashBody r) s

end Sys2Proof.Machine
end

