-- ==== Sys2Proof/Machine/Spawn.lean ====
section
/-! DEFINITION. Machine/Spawn.lean: SPAWN (R76 to R80), POSTR and POSTS (R100, R101), Baskets, their batches and timers (R72 to
R75, R81, R82), failing nodes (R84) and the end of a graph (R83). -/

namespace Sys2Proof.Machine

/-! ## Baskets -/

/-- A Basket header as it stands (R72). DESIGN CHOICE (log 131): the header has no error field, and its reserved bits (CFG, OPENER,
0x34 to 0x3F) are not looked at; an NBLK that is no power of two from 2 to 1,024, and a TEMPLATE, RING or GRAPH that is not
aligned, are used as they stand. -/
structure Basket where
  at_ : Nat
  template : Nat
  ring : Nat
  graph : Nat
  nblk : Nat
  isOpen : Bool
  code : Nat
  words : Nat
  deriving DecidableEq, Repr

def readBasket (s : State) (f k : Nat) : Basket :=
  let a := nodesAt s f + 64 * k
  let cfg := ag32 s f (a + 0x18)
  { at_ := a, template := ag64 s f a % 2 ^ 56, ring := ag64 s f (a + 8) % 2 ^ 56, graph := ag64 s f (a + 0x10) % 2 ^ 56,
    nblk := bits cfg 26 16, isOpen := bit cfg 5, code := bits cfg 4 3, words := bits cfg 2 0 + 1 }

/-- Records of a batch; the code 0 is reserved. -/
def Basket.batch (b : Basket) : Nat := 8 * 2 ^ b.code
def bTAIL (b : Basket) : Nat := b.at_ + 0x20
def bFREE (b : Basket) : Nat := b.at_ + 0x24
def bDISP (b : Basket) : Nat := b.at_ + 0x28
def bOPENER (b : Basket) : Nat := b.at_ + 0x2C
def bDROPS (b : Basket) : Nat := b.at_ + 0x30
/-- The block of batch n, and slot number i (R73). -/
def Basket.block (b : Basket) (n : Nat) : Nat := b.ring + (64 + 32 * b.batch) * (n % b.nblk)
def Basket.slot (b : Basket) (i : Nat) : Nat := b.block (i / b.batch) + 64 + 32 * (i % b.batch)
def graphStatus (s : State) (f : Nat) (b : Basket) : Nat := ag32 s f (b.graph + 8) % 4
/-- Whether a reserved bit of a graph block is set (R74). -/
def graphReserved (s : State) (f g : Nat) : Bool :=
  bits (ag32 s f (g + 4)) 31 16 != 0 || bits (ag32 s f (g + 8)) 31 2 != 0 || bits (ag32 s f (g + 12)) 31 17 != 0 ||
    bits (ag32 s f (g + 12)) 7 5 != 0

/-- An add to COUNT: an atomic that may leave it at 0 (R83). -/
def addCount (f graph n : Nat) (s : State) : State := graphCheck graph (atomAddW f graph n s).2
def subCount (f graph n : Nat) (s : State) : State := addCount f graph ((2 ^ 32 - n) % 2 ^ 32) s

/-! ## SPAWN -/

/-- The records of one block: FILLED is raised, and a full or closed batch is announced (R77). -/
def fillBlock (e : Env) (k : Nat) (b : Basket) (slots : List Nat) (s : State) (n : Nat) : State :=
  let f := e.team.f
  let blk := b.block n
  let count := (slots.filter (fun i => i / b.batch == n)).length
  let s := recordRelease e (blk / 64) s
  let (old, s) := atomAddW f blk count s
  let now := old + count
  let size := ag32 s f (blk + 4)
  if now = b.batch || (size != 0 && now = size) then
    (raiseEvent e.core 5 s).due [fw e.core f (.batchReady e.core f k)]
  else s

/-- The effect of SPAWN once its slots are reserved at `base` (R77, R78, R80). BasketOpened is raised once, however many blocks the
records open; the agent that takes it reads no block number (R81). -/
def spawnRecords (e : Env) (k d base : Nat) (b : Basket) (sel : List Nat) (s : State) : State :=
  let f := e.team.f
  let slots := (List.range sel.length).map (fun i => (base + i) % 2 ^ 32)
  let s := addCount f b.graph sel.length (endRestart e s)
  let s := (sel.zip slots).foldl (fun s p =>
    agPut f (b.slot p.2) ((List.range b.words).flatMap (fun i => leBytes 4 (e.group.readV (d + i) p.1).toNat)) s) s
  let s := ((slots.map (· / b.batch)).eraseDups).foldl (fillBlock e k b slots) s
  if slots.any (· % b.batch = 0) then (raiseEvent e.core 5 s).due [fw e.core f (.basketOpened e.core f k)] else s

/-- SPAWN (R77). -/
def spawnBody (d a : BitVec 6) (p : BitVec 3) : Env → State → Eff := engine fun e s =>
  if e.team.prov then .wait s
  else needs e [srcS a.toNat] s (
    let f := e.team.f
    let k := (e.ctx.readS a.toNat).toNat
    let b := readBasket s f k
    let sel := e.active.filter (fun l => e.group.readP p.toNat l)
    if nnode s f ≤ k then .trap cBasket none 0 s
    else if e.team.regs ≤ d.toNat + b.words - 1 then .trap cRegRange none 0 s
    else needs e (if sel.isEmpty then [] else (span d.toNat b.words).map (fun r => srcV r)) s (
      if !b.isOpen || b.code = 0 || graphStatus s f b != 0 then .trap cBasket none 0 s
      else if sel.isEmpty then .done 1 (endRestart e s)
      else
        let tail := ag32 s f (bTAIL b)
        if b.nblk * b.batch < (tail + sel.length + 2 ^ 32 - ag32 s f (bFREE b)) % 2 ^ 32 then .trap cBasket none 0 s
        else .done 1 (spawnRecords e k d.toNat tail b sel (atomAddW f (bTAIL b) sel.length s).2)))

def execSpawn (d a : BitVec 6) (p : BitVec 3) (s : State) : Host.Outcome State Fault Refusal :=
  run { major := 0x38, named := [d.toNat] } (spawnBody d a p) s

/-! ## POSTR and POSTS -/

/-- POSTR (R101). -/
def postrBody (a : BitVec 6) : Env → State → Eff := engine fun e s =>
  if e.team.prov then .wait s
  else needs e [srcS a.toNat] s (
    let at_ := e.team.record + 0x30
    let s := recordRelease e (at_ / 64) (endRestart e s)
    .done 1 (put32 e.team.f at_ (e.ctx.readS a.toNat).toNat s))

def execPostr (a : BitVec 6) (s : State) : Host.Outcome State Fault Refusal :=
  run { major := 0x39, minor := 0 } (postrBody a) s

/-- POSTS (R101). -/
def postsBody (d : BitVec 6) (w : BitVec 4) (b : BitVec 6) : Env → State → Eff := engine fun e s =>
  if e.team.prov then .wait s
  else needs e [srcS b.toNat, dstS d.toNat] s (
    let win := e.ctx.window w.toNat
    let t := (e.ctx.readS b.toNat).toNat
    if win.kind != .global then .trap cWindowKind none 0 s
    else if win.frame % 4 != 0 then .trap cMisaligned none win.frame s
    else match locate e win 0 0 4 (fun _ => false) 0 .atomic (fun tag => tag) (endRestart e s) with
      | (.error c, s) => .trap c.1 none c.2 s
      | (.ok ps, s) =>
        let h := (ps.headD { h := 0 }).h
        if hIsSpad h || hTarget h != 1 then .trap cProtection none win.frame s
        else if 0x7FFFFFFF < t then .trap cShapeValue none 0 s
        else
          let s := recordRelease e (h / 64) (flushLine e (h / 64) s)
          let old := leNat (readBytes s.mem h 4)
          let s := if old = 0xFFFFFFFF then homeWrite 0 ((span h 4).zip (leBytes 4 t)) s else s
          .done 1 (putS e d.toNat (word old) s))

def execPosts (d : BitVec 6) (w : BitVec 4) (b : BitVec 6) (s : State) : Host.Outcome State Fault Refusal :=
  run { major := 0x39, minor := 1 } (postsBody d w b) s

/-! ## Batches -/

/-- Whether a block holds batch n: slots of the batch have been reserved, and the block's batch before it has been released. -/
def batchOpened (s : State) (f n : Nat) (b : Basket) : Bool :=
  let first := n * b.batch
  let room := b.nblk * b.batch
  let reserved := (ag32 s f (bTAIL b) + (2 ^ 32 - first % 2 ^ 32)) % 2 ^ 32
  let ahead := (first + b.batch + (2 ^ 32 - ag32 s f (bFREE b))) % 2 ^ 32
  0 < reserved && reserved ≤ room && ahead ≤ room

/-- The next batch of a Basket, if it is ready: its number and SIZE (R81). FILLED counts for it only once the block is its own. -/
def readyBatch (s : State) (f : Nat) (b : Basket) : Option (Nat × Nat) :=
  let n := ag32 s f (bDISP b)
  let blk := b.block n
  let filled := ag32 s f blk
  let size := ag32 s f (blk + 4)
  if b.code = 0 || b.nblk = 0 || !batchOpened s f n b then none
  else if filled = b.batch || (size != 0 && filled = size) then some (n, if size = 0 then b.batch else size) else none

/-- What a template fails of R54 and R75. -/
def templateCause (s : State) (f : Nat) (b : Basket) : Option Nat :=
  match recordCause s f f b.template true with
  | some c => some c
  | none =>
    let width := bits (ag32 s f (recKernel s f b.template + 8)) 1 0
    if recTeamsz s f b.template != b.batch || width != b.code then some cLaunchRange else none

/-- A lapse (R81): the batch that TAIL stands inside closes short, if there is one, and the timer can be armed again. -/
def closeShort (f : Nat) (b : Basket) (s : State) : State :=
  let t := ag32 s f (bTAIL b)
  let n := t / b.batch
  put32 f (bOPENER b) 0 (if b.code = 0 || b.nblk = 0 || t % b.batch = 0 then s
    else put32 f (b.block n + 4) (t % b.batch) (put32 f (bTAIL b) ((n + 1) * b.batch % 2 ^ 32) s))

/-- The nodes whose Baskets feed a graph. -/
def graphNodes (s : State) (f graph : Nat) : List Nat :=
  (List.range (nnode s f)).filter (fun k => (readBasket s f k).graph == graph)

/-- NODE_FAILURE (R84). -/
def nodeFailure (core f k idx cause : Nat) (s : State) : State :=
  let b := readBasket s f k
  let s := (casW f (rERROR b.template) 0 (errorWord idx cause) s).2
  let s := (casW f (b.graph + 8) 0 1 s).2
  (graphNodes s f b.graph).foldl (fun s j =>
    let c := readBasket s f j
    let cfg := ag32 s f (c.at_ + 0x18)
    let s := put32 f (c.at_ + 0x18) (if bit cfg 5 then cfg - 32 else cfg) s
    (closeShort f c s).due [fw core f (.batchReady core f j)]) s

/-- A ready batch of a failing graph is discarded (R84). -/
def discardBatch (core f k n size : Nat) (b : Basket) (s : State) : State :=
  let s := put32 f (bDISP b) ((n + 1) % 2 ^ 32) s
  let s := (atomAddW f (bDROPS b) size s).2
  let s := (atomAddW f (bFREE b) b.batch s).2
  (subCount f b.graph size s).due [fw core f (.batchReady core f k)]

/-- What firmware reaches of a Basket: its template, the header of a block of its ring, and its graph block. -/
def basketReach (b : Basket) (n : Nat) : List (Nat × Nat) := [(b.template, 256), (b.block n, 64), (b.graph, 16)]

/-- A step of firmware on a node's Basket: an agent that cannot reach the header, or what the header names, stops (R265, R474). -/
def nodeStep (core f k : Nat) (act : State → State) (s : State) : State :=
  if nnode s f ≤ k then s
  else withRecord core f (nodesAt s f + 64 * k) 64 (fun s =>
    let b := readBasket s f k
    withRecords core f (basketReach b (ag32 s f (bDISP b))) act s) s

/-- BATCHREADY (R81): batch DISPATCHED of a node. One that can be dispatched is work to choose among (R62). -/
def batchReadyEvent (core f k : Nat) (s : State) : State :=
  let s := takeEvent core 5 s
  let b := readBasket s f k
  match readyBatch s f b with
  | none => s
  | some (n, size) =>
    if graphStatus s f b = 1 then discardBatch core f k n size b s
    else if bit (recFlags s f b.template) 3 then s
    else match templateCause s f b with
      | some c => nodeFailure core f k 0 c s
      | none => s.due [fw core f (.claim core f 0)]

def execBatchReady (core f node : Nat) (s : State) : Host.Outcome State Fault Refusal :=
  event (nodeStep core f node (batchReadyEvent core f node)) s

/-- BASKETOPENED (R81): the timer is armed once, and ATIMER counts it (R400). -/
def basketOpenedEvent (core f k : Nat) (s : State) : State :=
  let s := takeEvent core 5 s
  let b := readBasket s f k
  let r := casW f (bOPENER b) 0 (0x80000000 + core % 512) s
  let s := r.2
  let timer := ag32 s f (b.at_ + 0x1C)
  if r.1 && timer != 0 then dueIn core f timer (.lapse core f k) s else s

def execBasketOpened (core f node : Nat) (s : State) : Host.Outcome State Fault Refusal :=
  event (nodeStep core f node (basketOpenedEvent core f node)) s

/-- LAPSE (R81): the open batch is closed short, and the agent looks whether it is ready. -/
def lapseEvent (core f k : Nat) (s : State) : State :=
  let s := armTimer core (takeEvent core 6 s)
  (closeShort f (readBasket s f k) s).due [fw core f (.batchReady core f k)]

def execLapse (core f node : Nat) (s : State) : Host.Outcome State Fault Refusal :=
  event (nodeStep core f node (lapseEvent core f node)) s

/-- The end of a node team (R82), met by the agent of a core. -/
def nodeRetire (core f k idx : Nat) (s : State) : State :=
  withRecord core f (nodesAt s f + 64 * k) 64 (fun s =>
    let b := readBasket s f k
    withRecords core f (basketReach b (idx / 128)) (fun s =>
      let blk := b.block (idx / 128)
      let s := put32 f (blk + 4) 0 (put32 f blk 0 s)
      let s := (atomAddW f (bFREE b) b.batch s).2
      subCount f b.graph (idx % 128) s) s) s

/-! ## The end of a graph -/

/-- GRAPHIDLE (R83). DESIGN CHOICE (log 131): a graph block with a reserved bit set is rejected (R4) through STATUS, its error field:
the graph ends failed, and the rest of NOTIFY stands. -/
def graphIdleEvent (f g : Nat) (s : State) : State :=
  let s := takeAll f 7 s
  let succ := ag32 s f (g + 4) % 65536
  let status := ag32 s f (g + 8) % 4
  let notify := ag32 s f (g + 12)
  if ag32 s f g != 0 || 2 ≤ status then s
  else
    let new := if status = 0 && succValid s f succ && !graphReserved s f g then 2 else 3
    let s := put32 f (g + 8) new s
    let s := if new = 2 then releaseSucc f succ s else s
    if bit notify 16 then sendIrq (notify % 32) (bits notify 15 8) s else s

def execGraphIdle (core f graph : Nat) (s : State) : Host.Outcome State Fault Refusal :=
  event (withRecord core f graph 16 (graphIdleEvent f graph)) s

end Sys2Proof.Machine
end

