-- ==== Sys2Proof/Machine/Trap.lean ====
section
/-! DEFINITION. Machine/Trap.lean: the actions of RTT on stopped contexts (R392, R393, R396, R402, R403), the frame as the agent
reads it (R389), engine fault records (R399), and debug requests (R404, R405). -/

namespace Sys2Proof.Machine

/-! ## Contexts of a core -/

/-- The team in a slot of a core: its lower core and slot. -/
def teamInSlot (s : State) (core slot : Nat) : Option (Nat × Nat) :=
  ((teamsOn s core).find? (fun t => (if t.2.2 then t.2.1.upperSlot else t.1 % 16) == slot)).map (fun t => (t.1 / 16, t.1 % 16))

/-- The core whose context a number names for the agent of a core: its own, or where that holds no frame the upper core of a
pair team of which it is the lower (R392). -/
def frameSite (s : State) (core no : Nat) : Nat :=
  if ((s.core core).frame no).live then core
  else match frameEnv s (core + 1) no with
    | some e => if e.lower == core && ((s.core (core + 1)).frame no).live then core + 1 else core
    | none => core

/-- TF0 to TF9 of a context (R389); a context with no frame reads zero, but for HANDLING while its group runs in its handler. -/
def frameWord (fr : Frame) (k : Nat) : Word :=
  if !fr.live then (if k = 0 && fr.handling then 0x20000000 else 0)
  else match k with
    | 0 => word ((if fr.new then 0x80000000 else 0) + (if fr.held then 0x40000000 else 0) +
        (if fr.handling then 0x20000000 else 0) + (if fr.waitPage then 0x10000000 else 0) + fr.tslot * 0x1000000 +
        fr.lane * 0x10000 + fr.cause)
    | 1 => fr.tpc
    | 2 => fr.rpc
    | 3 => word fr.teamx
    | 4 => loWord fr.gang.toNat
    | 5 => hiWord fr.gang.toNat
    | 6 => loWord fr.addr
    | 7 => hiWord fr.addr
    | 8 => loWord fr.record
    | _ => hiWord fr.record

/-! ## The actions (R392) -/

/-- Whether a team runs RESTART (R283, R284): its kernel is restartable and nothing has ended RESTART for it. -/
def Team.runsRestart (t : Team) : Bool := !t.runsStall

/-- The tests of R392 on a context's frame. -/
def actionOk (action : Nat) (fr : Frame) (t : Team) (no : Nat) : Bool :=
  match action with
  | 0 => fr.new || fr.held || fr.waitPage
  | 1 => fr.new || fr.held
  | 2 => fr.new && bit t.header.toNat 16 && !fr.handling && no < 112 && handlerMay fr.cause && t.status != .ending
  | 3 => fr.new
  | 4 => fr.new || fr.held
  | 5 => fr.new && fr.cause == cPageAbsent && t.runsStall
  | 6 => fr.new && fr.cause == cPageAbsent && t.runsRestart
  | _ => false

/-- FAIL (R393): the team is brought to its end. A provisional team keeps the failure and its frame, which moves to its team
slot's number (R93). -/
def failTeam (lower slot : Nat) (fr : Frame) (s : State) : State :=
  let t := s.team lower slot
  let keep := t.prov && fr.live
  let s := if keep then s.setTeam lower slot { t with kept := fr.cause } else s
  let s := endTeam lower slot .fail s
  if keep then
    setFrame lower (scalarCtxNo slot) { fr with new := false, held := false, waitPage := false, handling := false, hidden := [] } s
  else s

/-- RESUME (R392): a deferred cause reported at the end of a team is reported again. -/
def resumeFrame (e : Env) (no : Nat) (s : State) : State :=
  let fr := (s.core e.core).frame no
  let s := resumeCtx e no fr.rpc fr.gang s
  if e.team.status == .ending then
    (s.setTeam e.lower e.slot { s.team e.lower e.slot with stopped := false }).due [{ instr := .teamEnd e.lower e.slot }]
  else s

/-- HANDLER (R396). -/
def enterHandler (e : Env) (no : Nat) (s : State) : State :=
  let fr := (s.core e.core).frame no
  let vals : List Word := [word (fr.lane * 0x10000 + fr.cause), fr.tpc, fr.rpc, e.ctx.mr, loWord fr.gang.toNat,
    hiWord fr.gang.toNat, loWord fr.addr, hiWord fr.addr]
  let s := setFrame e.core no
    { handling := true, gang := fr.gang, hidden := (List.range 8).map (fun i => e.ctx.readS (56 + i)) } s
  let s := putCtx e (fun c =>
    { vals.zipIdx.foldl (fun c v => c.writeS (56 + v.2) v.1) c with mr := c.mr &&& 0xFFFFC3FF }) s
  putGroup e (fun g =>
    { g with
      handler := some fr.gang
      stopped := false
      current := ((g.gangs.find? (fun x => x.lanes == fr.gang)).map (·.id)).getD g.current
      streak := 0
      gangs := g.gangs.map (fun x => if x.lanes == fr.gang then { x with pc := e.team.handlerPc, progress := {} } else x) }) s

/-- STEP (R181): the context is resumed for one instruction of each of its gangs; with none it has stepped. -/
def stepFrame (e : Env) (no : Nat) (s : State) : State :=
  let s := resumeFrame e no s
  if e.isScalar then putTeam e (fun t => { t with stepping := true }) s
  else stepCheck e (putGroup e (fun g =>
    let mine : Gang → Bool := fun x => match g.handler with
      | some m => (x.lanes &&& m) != 0
      | none => true
    { g with stepping := some { todo := (g.gangs.filter mine).map (·.id) } }) s)

/-- ABORT (R283, R284): the abort is counted at its page, and the team is brought to its end to be started again. -/
def abortTeam (lower slot va : Nat) (s : State) : State :=
  let t := s.team lower slot
  let page := va / 0x10000 * 0x10000
  let s := s.setTeam lower slot { t with kept := page, aborts := tput t.aborts page (tget t.aborts 0 page + 1) }
  endTeam lower slot .abort s

/-- The action on one context. -/
def actOn (action : Nat) (e : Env) (no : Nat) (s : State) : State :=
  let fr := (s.core e.core).frame no
  match action with
  | 0 => failTeam e.lower e.slot fr s
  | 1 => resumeFrame e no s
  | 2 => enterHandler e no s
  | 3 => setFrame e.core no { fr with new := false, held := true } s
  | 4 => stepFrame e no s
  | 5 => setFrame e.core no { fr with new := false, waitPage := true } s
  | _ => abortTeam e.lower e.slot fr.addr s

/-! ## What the firmware does before it stages an action (R402, R403) -/

/-- The KIND of a page fault (R281), from the instruction at the frame's TPC: 0 read, 1 write, 2 atomic, 3 engine. -/
def faultKind (s : State) (e : Env) : Nat :=
  match fetchWords s e with
  | .error _ => 0
  | .ok ws =>
    let m := (fM (ws.headD 0)).toNat
    if m = 0x25 || m = 0x27 then 1 else if m = 0x29 || m = 0x39 then 2 else if m = 0x09 || m = 0x2C || m = 0x30 then 3 else 0

/-- The failure of a team is recorded for its launch, or for its graph (R69, R84, R403); a provisional team's is kept (R93). -/
def reportFailure (core f : Nat) (t : Team) (cause : Nat) (s : State) : State :=
  if t.prov then s
  else match t.node with
    | some k => nodeFailure core f k t.idx cause s
    | none => teamFailure core f t.record t.idx cause s

/-- The accesses of such an instruction that the fault can stand for. -/
def faultAccs (s : State) (e : Env) : List Acc :=
  match faultKind s e, fetchWords s e with
  | 0, _ => [.load]
  | 1, _ => [.store]
  | 2, _ => [.atomic]
  | _, .ok ws => if (fM (ws.headD 0)).toNat = 0x09 then [.code] else if (fM (ws.headD 0)).toNat = 0x2C then [.pref]
      else [.copyRead, .copyWrite]
  | _, .error _ => []

def firmwareBefore (action : Nat) (e : Env) (no : Nat) (s : State) : State :=
  let fr := (s.core e.core).frame no
  let fault : FaultWait := { va := fr.addr, record := e.team.record, team := e.team.idx, kind := faultKind s e,
                             restart := e.team.runsRestart, written := false, accs := faultAccs s e }
  match action with
  | 0 => reportFailure e.core e.team.f e.team fr.cause s
  | 5 => faultRecord e.lower e.team.f fault s
  | 6 => faultRecord e.lower e.team.f fault s
  | _ => s

/-! ## RTT (R185, R392) -/

/-- STAGE.RESULT. -/
def stageResult (core : Nat) (refused : Bool) (s : State) : State :=
  putCore core (fun c => { c with stage := setBit c.stage 31 refused }) s

/-- An action on the team in a slot: FAIL and ABORT only. -/
def rttTeam (action core slot va : Nat) (s : State) : State :=
  match teamInSlot s core slot with
  | none => stageResult core true s
  | some (l, sl) =>
    let t := s.team l sl
    if l != core then stageResult core true s
    else if action = 0 then
      let fr := ((teamFrames s l sl).map (fun x => (s.core x.1).frame x.2)).find? (·.live)
      failTeam l sl (fr.getD {}) (stageResult core false s)
    else if action = 6 && t.runsRestart && !t.killed then abortTeam l sl va (stageResult core false s)
    else stageResult core true s

/-- NEW frames an agent answers for: those of its core, but for a pair team's of which its core is the upper one, and those of pair
teams on the upper core (R392). -/
def newFrames (s : State) (core : Nat) : List Nat :=
  (((s.core core).frames.filter (fun f => f.2.new)).map (·.1)).filter (fun no =>
    !(frameEnv s core no).any (fun e => e.lower != core)) ++
    (((s.core (core + 1)).frames.filter (fun f => f.2.new)).map (·.1)).filter (fun no =>
      (frameEnv s (core + 1) no).any (fun e => e.lower == core))

/-- TRAPNEXT (R391): the lowest context with a NEW frame. -/
def trapNext (s : State) (core : Nat) : Option Nat := (newFrames s core).min?

/-- The firmware has handled the TRAP event once no frame is NEW (R400). -/
def trapsSeen (core : Nat) (s : State) : State :=
  if s.request.isSome && (trapNext s core).isNone then takeEvent core 0 s else s

/-- The context an RTT names: one of the agent's own core, or of a pair team on the upper core, for which the lower core's agent
acts (R392); none where another agent acts. -/
def rttEnv (s : State) (core no : Nat) : Option Env :=
  let site := if s.request.isSome && 0 < fwArg s 1 then fwArg s 1 - 1 else frameSite s core no
  (frameEnv s site no).filter (fun x => x.lower == core)

/-- A BREAKPOINT goes to no handler while a debugger is attached (R387). -/
def debuggerKeeps (s : State) (action : Nat) (fr : Frame) (t : Team) : Bool :=
  action == 2 && fr.cause == cBreakpoint && bit (s.fcsr t.f 0x050).toNat 0

/-- RTT with an action: the context or the team that STAGE names. -/
def rttBody (action : Nat) (e : Env) (s : State) : Eff :=
  let st := (s.core e.core).stage.toNat
  let no := bits st 22 16
  if bit st 28 then .done 1 (rttTeam action e.core (bits st 27 24) (fwArg s 0) s)
  else match rttEnv s e.core no with
    | none => .done 1 (stageResult e.core true s)
    | some c =>
      let fr := (s.core c.core).frame no
      if actionOk action fr c.team no && !debuggerKeeps s action fr c.team then
        let s := stageResult e.core false s
        .done 1 (trapsSeen c.core (trapsSeen e.core
          (actOn action c no (if s.request.isSome then firmwareBefore action c no s else s))))
      else .done 1 (stageResult e.core true s)

def gRtt : Gate := { major := 0x00, minor := 9, agent := .only }

/-- RTT, action FAIL (R393). -/
def execFail (s : State) : Host.Outcome State Fault Refusal := agentRun gRtt (rttBody 0) s
/-- RTT, action RESUME (R392). -/
def execResume (s : State) : Host.Outcome State Fault Refusal := agentRun gRtt (rttBody 1) s
/-- RTT, action HANDLER (R396). -/
def execHandler (s : State) : Host.Outcome State Fault Refusal := agentRun gRtt (rttBody 2) s
/-- RTT, action HOLD (R392). -/
def execHold (s : State) : Host.Outcome State Fault Refusal := agentRun gRtt (rttBody 3) s
/-- RTT, action STEP (R181, R392). -/
def execStep (s : State) : Host.Outcome State Fault Refusal := agentRun gRtt (rttBody 4) s
/-- RTT, action WAITPAGE (R392, R402). -/
def execWaitPage (s : State) : Host.Outcome State Fault Refusal := agentRun gRtt (rttBody 5) s
/-- RTT, action ABORT (R283). -/
def execAbort (s : State) : Host.Outcome State Fault Refusal := agentRun gRtt (rttBody 6) s

/-! ## Engine fault records (R399) -/

/-- Words EF0 to EF6 of the oldest record. -/
def efWord (c : Core) (k : Nat) : Word :=
  match c.engfaults with
  | [] => 0
  | x :: _ =>
    match k with
    | 0 => word (0x80000000 + x.tslot * 0x1000 + cPageAbsent)
    | 1 => word x.teamx
    | 2 => loWord x.va
    | 3 => hiWord x.va
    | 4 => loWord x.record
    | 5 => hiWord x.record
    | _ => word x.kind

/-- EF0 written with 0: the oldest record is dismissed. -/
def dismissFault (core : Nat) (s : State) : State :=
  let s := putCore core (fun c => { c with engfaults := c.engfaults.tail }) s
  if (s.core core).engfaults.isEmpty then takeEvent core 8 s else s

def execEf0 (core : Nat) (s : State) : Host.Outcome State Fault Refusal := event (dismissFault core) s

/-! ## Debug requests (R404, R405) -/

/-- DBGSTOP: the context stops at its next boundary with DEBUG_HALT, at the gang whose lowest thread is lowest. -/
def debugStop (core no : Nat) (s : State) : State :=
  match ctxEnv s core no 0 0 with
  | none => s
  | some e =>
    if (s.core core).frame no |>.live then s
    else if e.isScalar then
      (if e.team.status == .scalar && !e.team.killed then stopCtx e cDebugHalt 0xFF 0 e.ctx.pc e.ctx.pc s else s)
    else match reportGang e.group with
      | none => s
      | some ga =>
        if e.team.killed || e.group.stopped then s
        else stopCtx { e with gang := ga } cDebugHalt ((lanesOf ga.lanes).headD 0) 0 ga.pc ga.pc s

/-- What the firmware does with a new DEBUG_HALT frame (R395). -/
def afterDebugStop (core no : Nat) (s : State) : State :=
  match frameEnv s core no with
  | none => s
  | some e =>
    let fr := (s.core core).frame no
    if !fr.new then s
    else
      let ch := firmwareChoice s e.team fr no
      s.due [agentRtt e.lower core e.team.f ch.1 no ch.2]

/-- CSRWR of DBGSTOP (R391). -/
def dbgstopWrite (core no : Nat) (s : State) : State := afterDebugStop core no (debugStop core no s)

/-- The fields of a DBGREQ value. -/
def dbgOp (v : Word) : Nat := bits v.toNat 30 28
def dbgCtx (v : Word) : Nat := bits v.toNat 27 21
def dbgCore (v : Word) : Nat := bits v.toNat 20 11

/-- DBGFRAME: a context's words, or zero. -/
def putDbgFrame (f : Nat) (fr : Frame) (s : State) : State :=
  (List.range 10).foldl (fun s k => s.setFcsr f (0x052 + k) (frameWord fr k)) s

/-- A debug request of a function (R405), by the agent of CORE: the action on the named context of the function, then DBGFRAME and
GO. -/
def debugRequest (action : Option Nat) (stop : Bool) (s : State) : State :=
  let f := (s.request.map (·.f)).getD 0
  let v := (s.request.map (·.value)).getD 0
  let core := dbgCore v
  let no := dbgCtx v
  let s := if core < 640 then takeEvent core 9 s else s
  let done : Frame → State → State := fun fr s => (putDbgFrame f fr s).setFcsr f 0x051 (setBit (s.fcsr f 0x051) 31 false)
  let mine : Bool := match ctxEnv s core no 0 0 with
    | some e => e.team.f == f
    | none => false
  if !mine then done {} s
  else
    let s := if stop then debugStop core no s else s
    match frameEnv s core no with
    | none => done {} s
    | some e =>
      let fr := (s.core core).frame no
      if stop then
        let ch := firmwareChoice s e.team fr no
        let s := if !fr.new then s else if ch.1 = 3 then actOn 3 e no s else s.due [agentRtt e.lower core f ch.1 no ch.2]
        done ((s.core core).frame no) s
      else match action with
        | none => done (if fr.live then fr else {}) s
        | some a =>
          if !actionOk a fr e.team no || debuggerKeeps s a fr e.team then done {} s
          else
            let s := actOn a e no (if a = 0 then firmwareBefore 0 e no s else s)
            let fr := (s.core core).frame no
            done (if fr.live then fr else {}) s

/-- DBGREQ stop. -/
def execDbgreqStop (s : State) : Host.Outcome State Fault Refusal := event (debugRequest none true) s
/-- DBGREQ resume. -/
def execDbgreqResume (s : State) : Host.Outcome State Fault Refusal := event (debugRequest (some 1) false) s
/-- DBGREQ step. -/
def execDbgreqStep (s : State) : Host.Outcome State Fault Refusal := event (debugRequest (some 4) false) s
/-- DBGREQ fail. -/
def execDbgreqFail (s : State) : Host.Outcome State Fault Refusal := event (debugRequest (some 0) false) s
/-- DBGREQ read frame. -/
def execDbgreqReadFrame (s : State) : Host.Outcome State Fault Refusal := event (debugRequest none false) s

end Sys2Proof.Machine
end

