-- ==== Sys2Proof/Machine/Owner.lean ====
section
/-! DEFINITION. Machine/Owner.lean: passing cores and shared-memory ways from one owner to another (R425, R457), ending every team
of a function without a launch record (R458), and a world's cycle counter (R420). -/

namespace Sys2Proof.Machine

/-! ## Cores -/

/-- A core as its next owner finds it (R457): every line written back and dropped; registers, scratchpad, granule bits,
accumulator banks, instruction slots and Hamper entries zero, the range-lock table clear. The agent's own slot stays. -/
def scrubCore (core : Nat) (s : State) : State :=
  let s := writeBack core (fun _ _ => true) s
  let s := { s with teams := s.teams.filter (fun t => t.1 / 16 != core),
                    groups := s.groups.filter (fun g => g.2.core != core && g.1 / 128 / 16 != core) }
  putCore core (fun c =>
    { c with
      l1 := [], spad := [], gfull := [], imem := [], imemOwner := [], hamper := [], locks := [], ops := [], accBanks := [],
      acc := [], drains := [], frames := [], engfaults := [], tlb := [], held := none, reservation := none, resumeWait := [] }) s

/-- The cores that serve another function after a change pass under R457. -/
def passCores (before : State) (s : State) : State :=
  ((List.range 640).filter (fun c => servedBy before c != servedBy s c)).foldl (fun s c => scrubCore c s) s

/-! ## Ways -/

/-- Bytes of homes that pass from their owner leave every L1 and every Hamper, so that none is written back there later. -/
def dropHomes (p : Nat → Bool) (s : State) : State :=
  { s with cores := s.cores.map (fun c => (c.1, { c.2 with
      l1 := c.2.l1.filter (fun b => !p b.1)
      hamper := c.2.hamper.filter (fun x => !p (x.line * 64)) })) }

/-- A way of shared memory set to zero (R425): its target-1 bytes and the lines of its owner that are resident in it. -/
def zeroWay (w : Nat) (s : State) : State :=
  let mine : Nat → Bool := fun h => hMake 1 0 (w * 0x1000000) ≤ h && h < hMake 1 0 ((w + 1) * 0x1000000)
  let s := dropHomes mine s
  { s with mem := s.mem.filter (fun c => !mine c.1),
           watch := s.watch.filter (fun l => l / 0x40000 != w) }

/-- The ways that a function loses are set to zero before another owner can use them, and its resident lines leave them. -/
def passWays (f : Nat) (old new : List Nat) (s : State) : State :=
  let gone := old.filter (fun w => !new.contains w)
  let s := gone.foldl (fun s w => zeroWay w s) s
  if gone.isEmpty then s
  else { s with resident := s.resident.filter (fun r => boundTo s (r.1 * 64) != some f) }

/-! ## Teams of a function -/

/-- Every team of a function is gone, without a launch record (R458): its stores are dropped and what it holds is freed. -/
def dropTeams (f : Nat) (s : State) : State :=
  ((s.teams.filter (fun t => t.2.f == f)).map (·.1)).foldl (fun s k =>
    let lower := k / 16
    let slot := k % 16
    let t := s.team lower slot
    let s := discardFrames lower slot (dropHamper lower slot s)
    let s := (teamOps s lower slot).foldl (fun s o => setOp o.1 o.2.1 none (releaseLocks o.2.1 s)) s
    freeTeam lower slot false (freeResources lower slot (clearOwners t s))) s

/-- Every team of a function fails with a cause (R435, R443), as its agents fail it. -/
def failTeams (f cause : Nat) (s : State) : State :=
  ((s.teams.filter (fun t => t.2.f == f && t.2.status != .free)).map (·.1)).foldl (fun s k =>
    let t := s.team (k / 16) (k % 16)
    failTeam (k / 16) (k % 16) {} (reportFailure (k / 16) f t cause s)) s

/-- Every bank-unit context of a function, one for each of its logical banks, becomes FAULTED with a cause (R443, R458). -/
def faultUnits (f cause : Nat) (s : State) : State :=
  let mine : Tbl Unit := (List.range (nlb s f)).map (fun b =>
    (unitKey f b, { s.unit (unitKey f b) with run := .faulted, faultCause := cause, owner := none }))
  { s with units := s.units.filter (fun u => u.1 < unitKey f 0) ++ mine ++ s.units.filter (fun u => unitKey f (nlb s f) ≤ u.1) }

/-! ## WCYC (R420) -/

/-- The cycle counter of a world takes the value it has counted to: how many cycles passed is open. -/
def latchCycles (f : Nat) (s : State) : State :=
  if worldCounts s f then
    let (a, s) := s.drawWord
    let (b, s) := s.drawWord
    (s.setFcsr f 0x07E a).setFcsr f 0x07F (b &&& 0xFFFF)
  else s

end Sys2Proof.Machine
end

