-- ==== Sys2Proof/Machine/Map.lean ====
section
/-! DEFINITION. Machine/Map.lean: row blocks as they are bound and scrubbed (R430, R441), and the slice map with what a write of
MAPDATA does (R431, R432, R458). -/

namespace Sys2Proof.Machine

/-! ## Row blocks (R430) -/

/-- Zero in every block of the row block at `pa`: no byte, no bad symbol, no poison entry and no cached line remains. -/
def zeroBlocks (pa : Nat) (s : State) : State :=
  let k := rbKey pa
  let s := dropHomes (fun h => !hIsSpad h && hTarget h == 0 && rbKey (hAddr h) == k) s
  { s with
    mem := s.mem.filter (fun c => !(hTarget c.1 == 0 && rbKey (hAddr c.1) == k))
    bad := s.bad.filter (fun b => b.1 / 0x2000 != k)
    poison := s.poison.map (fun p => (p.1, p.2.filter (fun b => b / 0x2000 != k)))
    resident := s.resident.filter (fun r => r.1 / 0x2000 != k) }

/-- Whether a row block can be bound: its generation has not run out. -/
def pgenLeft (s : State) (pa : Nat) : Bool := (rowBlock s pa).pgen < 0xFFFFFF

/-- Binding: the next generation, owner and zero plaintext under the owner's keys; PZ goes at a scrub alone (R441). -/
def bindBlock (f pa : Nat) (s : State) : State :=
  let b := rowBlock s pa
  let s := zeroBlocks pa s
  let now : RowBlock := { owner := f, bound := true, pgen := b.pgen + 1, pz := b.pz, keys := (keySlot s (stackOf pa) f).getD {} }
  { s with rowBlocks := tput s.rowBlocks (rbKey pa) now }

/-- Scrubbing: zero, the next generation, unbound. -/
def scrubBlock (pa : Nat) (s : State) : State :=
  let b := rowBlock s pa
  let s := zeroBlocks pa s
  { s with rowBlocks := tput s.rowBlocks (rbKey pa) { owner := 0, bound := false, pgen := min (b.pgen + 1) 0xFFFFFF } }

/-- A slice-map entry for a physical row block: its place and its generation (R431). -/
def entryFor (s : State) (pa : Nat) : Nat :=
  (rowBlock s pa).pgen * 2 ^ 40 + 0x80000000 + stackOf pa * 2 ^ 26 + bits pa 35 32 * 2 ^ 22 + bits pa 31 26 * 2 ^ 16 +
    bits pa 25 19 * 2 ^ 9

/-- The mapped entries of a function: map key and physical row block. -/
def mappedBlocks (s : State) (f : Nat) : List (Nat × Nat) :=
  ((s.func f).map.filter (fun e => bit e.2 31)).map (fun e => (e.1, entryPa e.2 0))

/-- Every mapped row block is rebound, and the entries take their new generations (R435). DESIGN CHOICE (log 136): one whose
generations have run out, which R430 never binds again, is scrubbed, and its entry is cleared. -/
def rebindAll (f : Nat) (s : State) : State :=
  (mappedBlocks s f).foldl (fun s e =>
    if pgenLeft s e.2 then
      let s := bindBlock f e.2 s
      s.setFunc f { s.func f with map := tput (s.func f).map e.1 (entryFor s e.2) }
    else
      let s := scrubBlock e.2 s
      s.setFunc f { s.func f with map := tdel (s.func f).map e.1 }) s

/-! ## The slice map (R432) -/

def setMapErr (f : Nat) (e : Bool) (s : State) : State := s.setFcsr f 0x10C (setBit (s.fcsr f 0x10C) 31 e)

/-- The logical bank and the row block that MAPSEL names, and whether they exist (R432). -/
def mapSelBank (s : State) (f : Nat) : Nat := bits (s.fcsr f 0x10C).toNat 20 7
def mapSelRb (s : State) (f : Nat) : Nat := bits (s.fcsr f 0x10C).toNat 6 0
def mapSelOk (s : State) (f : Nat) : Bool := mapSelBank s f < nlb s f && mapSelRb s f < nrb s f
/-- Whether a row block at `pa` may join a logical bank: all its row blocks lie in one physical bank (R348). -/
def sameBank (s : State) (f bank pa : Nat) : Bool :=
  (mappedBlocks s f).all (fun e => e.1 / 128 != bank || e.2 / 0x4000000 == pa / 0x4000000)

/-- Whether a function's slice registers and map take writes: the device is in service, the slice is not locked (R435), and no scrub of
it is BUSY (R458). -/
def mapOpen (s : State) (f : Nat) : Bool :=
  s.power == .service && (s.func f).tdisp == .unlocked && !bit (s.fcsr f 0x118).toNat 31

/-- Whether a row block can be given to a function: it is unbound, its generation has not run out, and the function that left it has no
scrub BUSY (R430, R458). -/
def blockFree (s : State) (pa : Nat) : Bool :=
  !(rowBlock s pa).bound && pgenLeft s pa &&
    s.funcs.all (fun g => !(bit (s.fcsr g.1 0x118).toNat 31 && g.2.scrubbing.contains (rbKey pa)))

/-- MAPDATA with V = 1. -/
def mapBind (f v : Nat) (s : State) : State :=
  let key := mapKey (mapSelBank s f) (mapSelRb s f)
  let pa := entryPa v 0
  if !mapOpen s f then s
  else if !mapSelOk s f || bit (tget (s.func f).map 0 key) 31 || !blockFree s pa || !sameBank s f (mapSelBank s f) pa then
    setMapErr f true s
  else
    let s := bindBlock f pa s
    let s := if bit v 30 then { s with rowBlocks := tput s.rowBlocks (rbKey pa) { rowBlock s pa with pz := true } } else s
    setMapErr f false (s.setFunc f { s.func f with map := tput (s.func f).map key (entryFor s pa) })

/-- MAPDATA with V = 0. -/
def mapScrub (f : Nat) (s : State) : State :=
  let key := mapKey (mapSelBank s f) (mapSelRb s f)
  let en := tget (s.func f).map 0 key
  if !mapOpen s f then s
  else if !mapSelOk s f then setMapErr f true s
  else
    let s := if bit en 31 then scrubBlock (entryPa en 0) s else s
    setMapErr f false (s.setFunc f { s.func f with map := tdel (s.func f).map key })

/-- A write of MAPDATA acts at once, on the entry that MAPSEL names then (R432). -/
def mapWrite (f : Nat) (v : Word) (s : State) : State := if bit v.toNat 31 then mapBind f v.toNat s else mapScrub f s

end Sys2Proof.Machine
end

