-- ==== Sys2Proof/Machine/Csr.lean ====
section
/-! DEFINITION. Machine/Csr.lean: the CSRs (R113, R274, R389 to R391, R398 to R401, R404, R415, R420, R423, R429, R438, R442, R444,
R458, R467, R473): what each reads as, its reserved bits, who may write it and what a write does; CSRRD and CSRWR (R390), and
the host's writes through BAR 0. -/

namespace Sys2Proof.Machine

/-! ## What a CSR reads as -/

/-- PUSTAT.OUTCOME (R467). -/
def outcome (s : State) : Nat :=
  match s.power with
  | .service => 1
  | .safe => 2
  | _ => 0

/-- The throttle steps of eight domains from `d` up (R467). -/
def throttleWord (s : State) (d n : Nat) : Word :=
  word ((List.range n).foldl (fun x j => x + tget s.domains 0 (d + j) * 16 ^ j) 0)

def Tdisp.code : Tdisp → Nat
  | .unlocked => 0
  | .locked => 1
  | .run => 2
  | .error => 3

/-- TDISPST (R423). -/
def tdispWord (s : State) (f : Nat) : Word :=
  word ((s.func f).tdisp.code + 0x100 * (match (s.func f).amend with
    | none => 0
    | some a => if a.active then 2 else 1))

/-- A slice-map entry with PZ as it stands, and MV clear (R431). -/
def entryRead (s : State) (en : Nat) : Nat := en + (if bit en 31 && (rowBlock s (entryPa en 0)).pz then 0x40000000 else 0)

/-- The slice-map entry that MAPSEL names, with PZ and MV as they stand (R431, R432). -/
def mapWord (s : State) (f : Nat) : Nat :=
  let key := mapKey (mapSelBank s f) (mapSelRb s f)
  if !mapSelOk s f then 0
  else entryRead s (mapEntry s f (mapSelBank s f) (mapSelRb s f)) +
    (match (s.func f).amend with
      | some a => if a.active && a.moves.zipIdx.any (fun m => m.1.1 == key && tget a.stage 0 m.2 == 1) then 0x20000000 else 0
      | none => 0)

/-- The registers of a core (R389, R391, R399, R401, R429), with the frames of a context; none where the number is none of
them. -/
def coreCsr (s : State) (core cx n : Nat) : Option Word :=
  let c := s.core core
  if n = 0x080 then
    some (match trapNext s core with
      | some k => word (0x80000000 + k)
      | none => 0)
  else if n = 0x081 then some c.stage
  else if n = 0x083 then some c.events
  else if n = 0x084 then some c.dbgstop
  else if n = 0x085 then some c.atimer
  else if 0x088 ≤ n && n ≤ 0x091 then some (frameWord ((s.core (frameSite s core cx)).frame cx) (n - 0x088))
  else if 0x098 ≤ n && n ≤ 0x09E then some (efWord c (n - 0x098))
  else if n = 0x0C0 then some c.watchlo
  else if n = 0x0C1 then some c.watchhi
  else if n = 0x0C2 then some c.apoison
  else none

/-- The registers no function and no core owns. -/
def deviceCsr (s : State) (n : Nat) : Option Word :=
  if n < 0x010 then some (Config.capability n)
  else if n = 0x010 then some (word (outcome s))
  else if n ≤ 0x015 then some (tget s.csr 0 n)
  else if n = 0x016 then some (throttleWord s 64 8)
  else if n = 0x017 then some (throttleWord s 72 1)
  else if n < 0x020 then some (throttleWord s (8 * (n - 0x018)) 8)
  else if (0x0B0 ≤ n && n ≤ 0x0BF) || (0x0C4 ≤ n && n ≤ 0x0C7) || n = 0x120 then some (tget s.csr 0 n)
  else none

/-- Numbers of the registers every function has. -/
def funcCsrKnown (n : Nat) : Bool :=
  (0x040 ≤ n && n ≤ 0x05B) || (0x060 ≤ n && n ≤ 0x067) || (0x070 ≤ n && n ≤ 0x07F) || (0x0D0 ≤ n && n ≤ 0x0DF) ||
    (0x100 ≤ n && n ≤ 0x118) || n = 0x121 || n = 0x122

/-- A register of a function. -/
def funcCsr (s : State) (f n : Nat) : Word :=
  if n = 0x071 then setBit (s.fcsr f n) 8 (s.func f).worldResident
  else if n = 0x10B then tdispWord s f
  else if n = 0x10D then loWord (mapWord s f)
  else if n = 0x10E then hiWord (mapWord s f)
  else if n = 0x122 then s.fcsr f (0x400 + (s.fcsr f 0x121).toNat % 64)
  else s.fcsr f n

/-- A read of a CSR; none where no chapter assigns the number (R390). -/
def csrRead (s : State) (core f cx n : Nat) : Option Word :=
  match coreCsr s core cx n, deviceCsr s n with
  | some v, _ => some v
  | none, some v => some v
  | none, none => if funcCsrKnown n then some (funcCsr s f n) else none

/-- What a function reads at offset 4·n of its BAR 0: the capability and power-up registers, the same for every function (R113,
R467), and its own copy of a function's register (R274, R473). A VF reads zero in the throttle registers (R467), the stop registers
(R398) and WSCTL (R415); in the safe state numbers below 0x020 alone are read (R466). Registers of a core, and numbers that no
chapter assigns, read as zero (log 122). -/
def barRead (s : State) (f n : Nat) : Word :=
  let ofPf := (0x016 ≤ n && n ≤ 0x01F) || (0x0B0 ≤ n && n ≤ 0x0BF) || (0x0C4 ≤ n && n ≤ 0x0C7) || n = 0x061
  if (f != 0 && ofPf) || (s.power == .safe && 0x020 ≤ n) then 0
  else match deviceCsr s n with
    | some v => v
    | none => if funcCsrKnown n then funcCsr s f n else 0

/-! ## What may be written -/

/-- Registers that are read-only for everyone (R113, R389, R399, R423, R438, R458, R467). -/
def csrFixed (n : Nat) : Bool :=
  n < 0x020 || n = 0x080 || (0x088 ≤ n && n ≤ 0x091 && n != 0x08A) || (0x099 ≤ n && n ≤ 0x09E) || n = 0x10B || n = 0x113 ||
    n = 0x117 || n = 0x118

/-- The bits of a CSR that are not reserved; read-only fields of a writable register are among them. -/
def csrBits (n : Nat) : Nat :=
  if n = 0x040 then 0xFFFFFF01
  else if n = 0x042 then 0xF8000000
  else if [0x041, 0x043, 0x047, 0x04B, 0x063, 0x066, 0x0D1, 0x0D3, 0x0D5, 0x0D7, 0x0DA, 0x111].contains n then 0x00FFFFFF
  else if [0x044, 0x04C, 0x067, 0x077, 0x079, 0x07B, 0x07D, 0x07F, 0x112].contains n then 0xFFFF
  else if n = 0x045 then 0x1FF
  else if n = 0x046 || n = 0x065 then 0xFFFF0000
  else if n = 0x048 then 0xFFFF003F
  else if n = 0x04F || n = 0x050 || n = 0x0C2 then 1
  else if n = 0x051 then 0xFFFFF800
  else if n = 0x061 then 0xC000001F
  else if n = 0x064 then 0xFFF
  else if n = 0x070 then 0x8000FF0F
  else if n = 0x071 then 0x10F
  else if 0x072 ≤ n && n ≤ 0x075 then 0xFF
  else if n = 0x081 then 0x9F7F0007
  else if n = 0x083 || n = 0x0D8 then 0x7FF
  else if n = 0x084 then 0x7F
  else if n = 0x098 || (0x0DB ≤ n && n ≤ 0x0DF) then 0
  else if n = 0x109 then 0xFF003FFF
  else if n = 0x10A then 0xFFFFF
  else if n = 0x10C then 0x801FFFFF
  else if n = 0x10D then 0xFFFFFE00
  else if n = 0x10E then 0xFFFFFF00
  else if n = 0x115 then 0x3FF
  else if n = 0x116 then 0xF000FFFF
  else if n = 0x120 || n = 0x121 then 0x3F
  else if n = 0x122 then 0x8000001F
  else 0xFFFFFFFF

/-- Whether a value sets a reserved bit or a field's reserved value (R4, R390, R420). -/
def csrReserved (n : Nat) (v : Word) : Bool :=
  v.toNat &&& (0xFFFFFFFF - csrBits n) != 0 || (n = 0x081 && bits v.toNat 2 0 = 7) ||
    (0x072 ≤ n && n ≤ 0x075 && 0x0A < v.toNat) || (n = 0x051 && 4 < bits v.toNat 30 28) ||
    (n = 0x116 && (bits v.toNat 31 28 = 0 || 4 < bits v.toNat 31 28))

/-- Whether an agent that serves `sf` may write a function's register (R274, R390, R404, R415, R420, R423, R438, R444, R473). -/
def agentMayWrite (s : State) (sf f n : Nat) : Bool :=
  let free := (s.func f).tdisp == .unlocked
  if 0x040 ≤ n && n ≤ 0x04F then n = 0x049 || n = 0x04D || n = 0x04F
  else if n = 0x050 then false
  else if n = 0x061 then sf == 0
  else if 0x060 ≤ n && n ≤ 0x067 then free
  else if 0x0D0 ≤ n && n ≤ 0x0DF then sf == 0
  else if 0x100 ≤ n && n ≤ 0x10F then sf == 0 && free
  else if 0x110 ≤ n && n ≤ 0x115 then false
  else if n = 0x116 || (0x0B0 ≤ n && n ≤ 0x0BF) || (0x0C4 ≤ n && n ≤ 0x0C7) then sf == 0
  else if n = 0x120 then sf == 0 && (List.range 32).all (fun g => (s.func g).tdisp == .unlocked)
  else if n = 0x121 || n = 0x122 then sf == 0 && free
  else true

/-- Whether a write through the BAR 0 of function `w` takes effect on a register of `f`: a driver writes its own function's
registers, and the PF alone the placement, slice and domain registers, WSCTL and the stop registers (R274, R398, R415, R423, R435,
R444, R473). Nothing enables the PF, whose own placement registers the PF may write at any time (log 120). -/
def hostMayWrite (s : State) (w f n : Nat) : Bool :=
  let own := w == f
  let pf := w == 0
  let free := (s.func f).tdisp == .unlocked
  let drives := (s.func f).enabled
  if csrFixed n || (0x052 ≤ n && n ≤ 0x05B) || n = 0x116 then false
  else if (0x040 ≤ n && n ≤ 0x050) || n = 0x060 || (0x062 ≤ n && n ≤ 0x067) || (0x110 ≤ n && n ≤ 0x115) then
    own && drives && driverMay s f
  else if n = 0x051 || (0x070 ≤ n && n ≤ 0x07F) then own && drives
  else if n = 0x061 then pf && drives
  else if 0x0D0 ≤ n && n ≤ 0x0DF then pf && free && (!drives || f = 0)
  else if 0x100 ≤ n && n ≤ 0x10F then pf && free
  else if n = 0x121 || n = 0x122 then pf && free
  else if n = 0x120 then pf && (List.range 32).all (fun g => (s.func g).tdisp == .unlocked)
  else pf && f = 0 && ((0x0B0 ≤ n && n ≤ 0x0BF) || (0x0C4 ≤ n && n ≤ 0x0C7))

/-! ## What a write does -/

/-- A step that answers a request on a function's register. -/
def reqDue (f : Nat) (v : Word) (i : Instr) : Due := { req := some { f := f, value := v }, instr := i }

/-- Whether the sets of owned octets, stack cores and ways stay disjoint across functions (R423), and the octets of time-share
groups (R424). -/
def setsDisjoint (s : State) : Bool :=
  let fs := List.range 32
  fs.all (fun f => fs.all (fun g =>
    let meets : Nat → Nat → Bool := fun a b => (s.fcsr f a).toNat &&& (s.fcsr g b).toNat != 0
    !(meets 0x100 0x102 || meets 0x101 0x103) &&
      (f == g || !(meets 0x100 0x100 || meets 0x101 0x101 || (List.range 4).any (fun k => meets (0x105 + k) (0x105 + k)) ||
        (s.fcsr f 0x10A).toNat % 0x10000 &&& (s.fcsr g 0x10A).toNat % 0x10000 != 0 ||
        ((meets 0x102 0x102 || meets 0x103 0x103) && s.fcsr f 0x104 != 0 && s.fcsr g 0x104 != 0 && s.fcsr f 0x104 != s.fcsr g 0x104)))))

/-- Whether a function stands in a time-share group: two to four members, itself among them, with one TSPEERS and one STSOCT
(R424). -/
def groupFormed (s : State) (f : Nat) : Bool :=
  let members := (List.range 32).filter (bit (s.fcsr f 0x104).toNat)
  2 ≤ members.length && members.length ≤ 4 && members.contains f &&
    members.all (fun g => s.fcsr g 0x104 == s.fcsr f 0x104 && s.fcsr64 g 0x102 == s.fcsr64 f 0x102)

/-- A function of a time-share group is resident when no other member is; one that time-shares no octet always is (R418, R420,
R424). -/
def setResident (f : Nat) (s : State) : State :=
  let peers := (List.range 32).filter (fun g => g != f && bit (s.fcsr f 0x104).toNat g)
  let taken := peers.any (fun g => s.fcsr64 g 0x102 != 0 && (s.func g).worldResident && s.fcsr g 0x104 != 0)
  s.setFunc f { s.func f with worldResident := s.fcsr64 f 0x102 == 0 || !taken }

/-- A write of a set of the slice (R423, R457): cores and ways pass; one that breaks the rule is ignored. -/
def writeSet (f n : Nat) (v : Word) (s : State) : State :=
  let t := s.setFcsr f n v
  if !setsDisjoint t then s
  else
    let t := if n = 0x102 || n = 0x103 || n = 0x104 then setResident f t else t
    passCores s (passWays f (ownedWays s f) (ownedWays t f) t)

/-- A debug request (R404, R405): DEBUG at the agent of CORE, which acts; while that agent has stopped, GO stands. -/
def postDebug (f : Nat) (v : Word) (s : State) : State :=
  let s := s.setFcsr f 0x051 v
  if !bit v.toNat 31 then s
  else
    let i : Instr := match dbgOp v with
      | 0 => .dbgreqStop
      | 1 => .dbgreqResume
      | 2 => .dbgreqStep
      | 3 => .dbgreqFail
      | _ => .dbgreqReadFrame
    if dbgCore v < 640 then
      (raiseEvent (dbgCore v) 9 s).due [{ reqDue f v i with who := some (.ctx (.agent (dbgCore v)) 0) }]
    else s.due [reqDue f v i]

/-- The octets that a function time-shares, ascending. -/
def sharedOctets (s : State) (f : Nat) : List Nat := (List.range 64).filter (fun o => bit (s.fcsr64 f 0x102) o)

/-- WSCTL (R415, R418, R424): an INCOMING that is not in TSPEERS is ignored; GO hands the octets to another member; clearing GO while
NOROOM stands abandons the switch, and a switch under way that has room goes on. DESIGN CHOICE (log 135): GO is ignored where the
members' registers do not yet agree. -/
def writeWsctl (f : Nat) (v : Word) (s : State) : State :=
  let old := (s.fcsr f 0x061).toNat
  let go := bit v.toNat 31
  if !bit (s.fcsr f 0x104).toNat (bits v.toNat 4 0) then s
  else if go && (!groupFormed s f || bits v.toNat 4 0 = f || bit old 31) then s
  else if go then s.setFcsr f 0x061 (setBit v 30 false)
  else if bit old 31 && !bit old 30 then s
  else
    let t := s.setFcsr f 0x061 (word (bits v.toNat 4 0))
    if bit old 31 then t.due ((sharedOctets s f).map (fun o => reqDue f v (.switchAbandon o))) else t

/-- What MIGCMD asks for (R438). -/
def migDue (f : Nat) (v : Word) : Due :=
  reqDue f v (match bits v.toNat 31 28 with
    | 1 => .migcmdCopy
    | 2 => .migcmdFinal
    | 3 => .migcmdRelease
    | _ => .migcmdCommit)

/-- A write of MIGCMD: the command starts and MIGSTAT is BUSY, or, while one is BUSY, it is REFUSED (R438). -/
def writeMigcmd (f : Nat) (v : Word) (s : State) : State :=
  if bit (s.fcsr f 0x117).toNat 31 then s.setFcsr f 0x117 (setBit (s.fcsr f 0x117) 30 true)
  else ((s.setFcsr f 0x116 v).setFcsr f 0x117 (word (0x80000000 + bits v.toNat 15 0))).due [migDue f v]

/-- The agents of the cores whose bits a write of a stop register sets are restarted (R398). -/
def restartDue (n : Nat) (v : Word) : List Due :=
  let base := if 0x0C4 ≤ n then 512 + 32 * (n - 0x0C4) else 32 * (n - 0x0B0)
  (lanesOf (v.setWidth 64)).map (fun k => { instr := .agentstop (base + k) })

/-- The effect of a write of a function's or the device's register that its rules allow; the slice registers of a function whose
scrub is BUSY take none (R458). -/
def csrStore (f n : Nat) (v : Word) (s : State) : State :=
  if (n = 0x040 || n = 0x041) && s.teams.any (fun t => t.2.f == f && t.2.status != .free) then s
  else if 0x100 ≤ n && n ≤ 0x10F && bit (s.fcsr f 0x118).toNat 31 then s
  else if n = 0x048 then tinvctlEvent f v s
  else if n = 0x051 then postDebug f v s
  else if n = 0x061 then writeWsctl f v s
  else if n = 0x070 then (latchCycles f s).setFcsr f n v
  else if n = 0x071 then s.setFcsr f n (s.fcsr f n &&& ~~~(v &&& 0xF))
  else if 0x0D0 ≤ n && n ≤ 0x0DF && (s.func f).enabled && f != 0 then s
  else if (0x100 ≤ n && n ≤ 0x108) || n = 0x10A then writeSet f n v s
  else if n = 0x10C then s.setFcsr f n ((s.fcsr f n &&& 0x80000000) ||| (v &&& 0x1FFFFF))
  else if n = 0x10D then mapWrite f v s
  else if n = 0x10E then s
  else if n = 0x116 then writeMigcmd f v s
  else if n = 0x122 then s.setFcsr f (0x400 + (s.fcsr f 0x121).toNat % 64) v
  else if n = 0x120 then { s with csr := tput s.csr n v }
  else if (0x0B0 ≤ n && n ≤ 0x0BF) || (0x0C4 ≤ n && n ≤ 0x0C7) then s.due (restartDue n v)
  else s.setFcsr f n v

/-! ## Registers of a core -/

/-- WATCHHI (R401): the watch bit of the named line; an address outside shared memory is PROTECTION. -/
def writeWatchhi (core : Nat) (v : Word) (s : State) : Except Nat State :=
  let pa := (s.core core).watchlo.toNat + v.toNat * 2 ^ 32
  if pa / 2 ^ 48 != 1 || Config.sharedBytes ≤ hAddr pa then .error cProtection
  else
    let s := putCore core (fun c => { c with watchhi := v }) s
    .ok { s with watch := if s.watch.contains (hAddr pa / 64) then s.watch else s.watch ++ [hAddr pa / 64] }

/-- A write of a register of the core, of a context where it has one. -/
def coreStore (core cx n : Nat) (v : Word) (s : State) : Except Nat State :=
  if n = 0x081 then .ok (putCore core (fun c => { c with stage := (c.stage &&& 0x80000000) ||| (v &&& 0x1F7F0007) }) s)
  else if n = 0x083 then .ok (putCore core (fun c => { c with events := c.events &&& ~~~v }) s)
  else if n = 0x084 then .ok (dbgstopWrite core v.toNat (putCore core (fun c => { c with dbgstop := v }) s))
  else if n = 0x085 then .ok (putCore core (fun c => { c with atimer := v }) s)
  else if n = 0x08A then
    (let at_ := frameSite s core cx
    let fr := (s.core at_).frame cx
    .ok (if fr.live then setFrame at_ cx { fr with rpc := v } s else s))
  else if n = 0x098 then .ok (putCore core (fun c => { c with engfaults := c.engfaults.tail }) s)
  else if n = 0x0C0 then .ok (putCore core (fun c => { c with watchlo := v }) s)
  else if n = 0x0C1 then writeWatchhi core v s
  else .ok (putCore core (fun c => { c with apoison := c.apoison &&& ~~~v }) s)

/-- Whether a number is a register of a core. -/
def coreCsrKnown (n : Nat) : Bool :=
  n = 0x080 || n = 0x081 || (0x083 ≤ n && n ≤ 0x085) || (0x088 ≤ n && n ≤ 0x091) || (0x098 ≤ n && n ≤ 0x09E) ||
    (0x0C0 ≤ n && n ≤ 0x0C2)

/-! ## CSRRD and CSRWR (R390) -/

def xNum (x : Nat) : Nat := bits x 11 0
def xFunc (x : Nat) : Nat := bits x 16 12
def xCtx (x : Nat) : Nat := bits x 23 17

/-- CSRRD. -/
def csrrdBody (d a : BitVec 6) (e : Env) (s : State) : Eff :=
  needs e [srcS a.toNat, dstS d.toNat] s (
    let x := (e.ctx.readS a.toNat).toNat
    let s := if xNum x = 0x07E || xNum x = 0x07F then latchCycles (xFunc x) s else s
    if bits x 31 24 != 0 then .trap cReserved none 0 s
    else match csrRead s e.core (xFunc x) (xCtx x) (xNum x) with
      | none => .trap cReserved none 0 s
      | some v => .done 1 (putS e d.toNat v s))

def execCsrrd (d a : BitVec 6) (s : State) : Host.Outcome State Fault Refusal := run (gSysx 4) (csrrdBody d a) s

/-- CSRWR. -/
def csrwrBody (a b : BitVec 6) (e : Env) (s : State) : Eff :=
  needs e [srcS a.toNat, srcS b.toNat] s (
    let x := (e.ctx.readS a.toNat).toNat
    let v := e.ctx.readS b.toNat
    let n := xNum x
    let f := xFunc x
    if bits x 31 24 != 0 || (csrRead s e.core f (xCtx x) n).isNone then .trap cReserved none 0 s
    else if csrFixed n || (!coreCsrKnown n && !agentMayWrite s (servedBy s e.core) f n) then .trap cPriv none 0 s
    else if csrReserved n v then .trap cReserved none 0 s
    else if coreCsrKnown n then
      match coreStore e.core (xCtx x) n v s with
      | .error c => .trap c none 0 s
      | .ok t => .done 1 t
    else .done 1 (csrStore f n v s))

def execCsrwr (a b : BitVec 6) (s : State) : Host.Outcome State Fault Refusal := run (gSysx 5) (csrwrBody a b) s

/-! ## Writes from outside -/

/-- CSR_WRITE: a write through the BAR 0 of one function to a register of one; one that its rules do not allow is ignored. -/
def hostCsr (b : BarFunc) (n : Nat) (v : Word) (s : State) : State :=
  if s.power != .service || !hostMayWrite s b.via b.f n || csrReserved n v then s else csrStore b.f n v s

def execCsrWrite (bar : BarFunc) (n : Nat) (value : Word) (s : State) : Host.Outcome State Fault Refusal :=
  event (hostCsr bar n value) s

/-- The state a register write answers, or the agent's trap with the cause it answers. -/
def orAgentTrap (core : Nat) (s : State) : Except Nat State → State
  | .error c => agentTrap core c s
  | .ok t => t

/-- WATCHHI written for an agent. -/
def watchhiEvent (core : Nat) (v : Word) (s : State) : State :=
  orAgentTrap core s (writeWatchhi core v s)

def execWatchhi (core : Nat) (value : Word) (s : State) : Host.Outcome State Fault Refusal :=
  event (watchhiEvent core value) s

/-- AGENTSTOP (R398): a stopped agent starts at its firmware entry, its scalar context clear, every event pending. -/
def agentRestart (core : Nat) (s : State) : State :=
  if !(s.core core).agentStopped then s
  else
    let n := if isStack core then 0x0C4 + (core - 512) / 32 else 0x0B0 + core / 32
    let k := (if isStack core then core - 512 else core) % 32
    let s := { s with csr := tput s.csr n (setBit (tget s.csr 0 n) k false) }
    let s := putCore core (fun c =>
      { c with agentStopped := false, ctx := {}, events := 0x7FF, agentWork := !c.agentCode.isEmpty }) s
    writeKick (servedBy s core) 0 s

def execAgentstop (core : Nat) (s : State) : Host.Outcome State Fault Refusal := event (agentRestart core) s

end Sys2Proof.Machine
end

