-- ==== Sys2Proof/Machine/Image.lean ====
section
/-! DEFINITION. Machine/Image.lean: the saved image of a team (R411 to R413): its size, its bytes, and what is read back from it,
re-sliced to a new grant (R126, R129, R197, R397). -/

namespace Sys2Proof.Machine

/-! ## Layout (R411) -/

def align64 (x : Nat) : Nat := (x + 63) / 64 * 64

/-- Groups with an unfinished thread or a context, in ascending order; a team's groups are numbered from 0. -/
def teamGroupsAt (s : State) (lower slot : Nat) : List Nat := List.range (s.team lower slot).ngrp

/-- The accumulator banks of a team: core and bank, ascending. -/
def teamBanks (s : State) (lower slot : Nat) : List (Nat × Nat) :=
  (teamCores lower (s.team lower slot)).flatMap (fun c => (s.core c).accBanks.filterMap (fun b => match b.2 with
    | some x => if x.team == teamKey lower slot then some (c, b.1) else none
    | none => none))

/-- The Hamper entries of a provisional team; those of any other team are committed before the image is written. -/
def teamHamper (s : State) (lower slot : Nat) : List HamperEntry :=
  let t := s.team lower slot
  if t.prov then
    (teamCores lower t).flatMap (fun c => (s.core c).hamper.filter (fun x => x.team == teamKey lower slot))
  else []

/-- The sizes of the eight sections. -/
structure ImgDims where
  ended : Bool
  scalar : Bool
  teamsz : Nat
  regs : Nat
  ngrp : Nat
  nbank : Nat
  nhamp : Nat
  spad : Nat
  deriving DecidableEq, Repr

def ImgDims.sizes (d : ImgDims) : List Nat :=
  if d.ended then [1536, 0, 0, 0, 80 * d.nhamp, 0, 0, 0]
  else [1536 * d.ngrp, d.teamsz * (16 + 4 * d.regs), (d.teamsz + 3) / 4 * 64, 1040 * d.nbank, 80 * d.nhamp, 1024, d.spad,
    (d.spad / 16 + 7) / 8]

/-- The offset of each section, and the end of the last. -/
def ImgDims.offs (d : ImgDims) : List Nat × Nat :=
  d.sizes.foldl (fun r n => (r.1 ++ [align64 r.2], align64 r.2 + n)) ([], 256)

def imgDims (s : State) (lower slot : Nat) : ImgDims :=
  let t := s.team lower slot
  { ended := t.endedProv, scalar := t.g == 0, teamsz := t.teamsz, regs := t.regs, ngrp := (if t.g == 0 then 1 else t.ngrp),
    nbank := (teamBanks s lower slot).length, nhamp := (teamHamper s lower slot).length, spad := t.extent }

/-- ImageSize (R411). -/
def imageSize (s : State) (lower slot : Nat) : Nat := (imgDims s lower slot).offs.2

/-! ## Writing (R411 to R413) -/

def zeros (n : Nat) : List Byte := List.replicate n 0

/-- Bytes up to a length. -/
def padTo (n : Nat) (bs : List Byte) : List Byte := bs ++ zeros (n - bs.length)

/-- A bit set as a number. -/
def bitSet (p : Nat → Bool) (n : Nat) : Nat := (List.range n).foldl (fun x i => if p i then x + 2 ^ i else x) 0

def WinKind.code : WinKind → Nat
  | .global => 0
  | .spad => 1
  | .cluster => 2
  | .priv => 3
  | _ => 4
def kindOf (n : Nat) : WinKind :=
  match n with
  | 0 => .global
  | 1 => .spad
  | 2 => .cluster
  | 3 => .priv
  | _ => .unset

/-- A window: the frame, in whose top byte [1:0] are the kind and [2] is set where it has none, the cluster team, zero (log 76). -/
def winBytes (w : Window) : List Byte :=
  leBytes 8 (w.frame % 2 ^ 56 + w.kind.code * 2 ^ 56) ++ leBytes 4 w.team ++ zeros 4

def joinBytes (j : Option JoinSlot) : List Byte :=
  match j with
  | none => zeros 16
  | some k => leBytes 4 1 ++ leBytes 4 k.pc.toNat ++ leBytes 8 k.mask.toNat

/-- The frame words of a group record: those of a HELD or WAITPAGE frame, zero otherwise. -/
def frameBytes (fr : Frame) : List Byte :=
  if fr.live then (List.range 10).flatMap (fun k => leBytes 4 (frameWord fr k).toNat) else zeros 40

/-- A group record (R412) of a context. -/
def groupBytes (c : Ctx) (g : Group) (gi : Nat) (scalar producer : Bool) (fr : Frame) : List Byte :=
  let u32 : Nat → List Byte := leBytes 4
  let flags := (if c.qmod != 0 then 1 else 0) + (if producer then 2 else 0) + (if g.handler.isSome then 4 else 0) +
    (if g.matrixFail != 0 then 8 else 0) + g.matrixFail * 2 ^ 9 +
    (if scalar then bitSet (fun k => c.readP (k + 1)) 7 * 2 ^ 24 else 0)
  (List.range 64).flatMap (fun r => u32 (c.readS r).toNat) ++
    leBytes 8 (bitSet (fun r => !c.sEmpty.contains r) 64) ++ leBytes 8 (bitSet (fun r => !c.vEmpty.contains r) 64) ++
    u32 c.mr.toNat ++ u32 c.exc.toNat ++ u32 c.clk.toNat ++
    u32 gi ++
    leBytes 8 c.qmod ++ leBytes 8 flags ++
    (List.range 8).flatMap (fun b => u32 (match tget g.arrived none b with
      | some ph => 1 + 2 * ph
      | none => 0)) ++
    (List.range 8).flatMap (fun k => leBytes 2 (if producer then tget g.tokenCauses 0 k else 0)) ++
    (List.range 16).flatMap (fun w => winBytes (c.window w)) ++
    (List.range 8).flatMap (fun j => joinBytes (g.slot 0 j)) ++
    padTo 32 (fr.hidden.flatMap (fun x => u32 x.toNat)) ++
    frameBytes fr ++ zeros 216 ++
    (List.range 24).flatMap (fun k => joinBytes (g.slot (1 + k / 8) (k % 8))) ++ zeros 128

/-- Where a lane stands: its PC, its state (running, blocked, parked or finished, R170), its join slot and its gang. DESIGN CHOICE
(log 118): blocked are the lanes whose instruction is blocked on an empty register (R174) and, while a user handler runs, those
outside it (R396). -/
def laneState (t : Team) (g : Group) (l : Nat) : Word × Nat × Nat × Nat :=
  let outside := g.handler.any (fun m => !m.getLsbD l)
  if g.finished.getLsbD l then (0, 3, 0, 0)
  else match g.gangs.zipIdx.find? (fun x => x.1.lanes.getLsbD l) with
    | some x => (x.1.pc, if outside || x.1.progress.blocked then 1 else 0, 0, x.2)
    | none =>
      let block := if t.w16 then l / 16 else 0
      let j := ((List.range 8).find? (fun j => (g.slot block j).any (fun k => k.parked.getLsbD l))).getD 0
      (tget g.parkPc 0 l, 2, j, 0)

/-- A thread record (R413). -/
def threadBytes (t : Team) (g : Group) (l : Nat) : List Byte :=
  let (pc, st, j, ga) := laneState t g l
  leBytes 4 pc.toNat ++ leBytes 4 (st + 4 * j + 2 ^ 9 * bitSet (fun k => g.readP (k + 1) l) 7 + 2 ^ 16 * ga) ++ zeros 8 ++
    (List.range t.regs).flatMap (fun r => leBytes 4 (g.readV r l).toNat)

/-- The record of a quad: its return stack, bottom entry first. -/
def quadBytes (g : Group) (q : Nat) : List Byte :=
  padTo 64 (((g.stack q).reverse).flatMap (fun r => leBytes 4 r.pc.toNat ++ leBytes 4 ((r.lanes.toNat >>> (4 * q)) % 16)))

/-- A bank record. -/
def bankBytes (s : State) (core b : Nat) : List Byte :=
  let c := s.core core
  let x := (tget c.accBanks none b).getD { team := 0, first := 0, len := 0, holder := 0, band := 0 }
  leBytes 2 b ++ leBytes 2 x.first ++ leBytes 2 x.band ++ leBytes 2 (x.owner.getD 0xFFFF) ++ leBytes 2 x.holder ++ zeros 6 ++
    (List.range 256).flatMap (fun i => leBytes 4 (tget c.acc 0 (b * 256 + i)).toNat)

/-- A Hamper record: the line, the bytes held, the data. -/
def hamperBytes (x : HamperEntry) : List Byte :=
  leBytes 8 (x.line * 64) ++ leBytes 8 (bitSet (fun i => (tget x.bytes none i).isSome) 64) ++
    (List.range 64).map (fun i => (tget x.bytes none i).getD 0)

def SlotState.code : SlotState → Nat
  | .unbound => 0
  | .landing => 1
  | .landed => 2
  | .failed => 3

def slotBytes (l : LSlot) : List Byte := leBytes 4 l.st.code ++ leBytes 4 l.cause ++ leBytes 8 l.source

/-- MODE. -/
def modeOf (t : Team) : Nat :=
  t.g + (if t.pin then 0x100 else 0) + (if t.prov then 0x200 else 0) +
    (if t.idem && !t.stall then 0x400 else 0) + (if t.stall || t.hamperStall then 0x800 else 0) +
    (if t.pair then 0x1000 else 0) + (if t.setwWait.isSome then 0x2000 else 0) + (if t.endedProv then 0x4000 else 0) +
    0x10000 * min 31 ((t.aborts.map (·.2)).foldl max 0)

/-- The private block of a team (R270). -/
def privIndex (s : State) (t : Team) : Nat := (t.priv + 2 ^ 56 - s.fcsr64 t.f 0x042 % 2 ^ 56) % 2 ^ 56 / 2 ^ 27

/-- The header. -/
def headerBytes (s : State) (lower slot : Nat) : List Byte :=
  let t := s.team lower slot
  let d := imgDims s lower slot
  let u32 : Nat → List Byte := leBytes 4
  padTo 256 (u32 0x47534157 ++ u32 1 ++ u32 d.offs.2 ++ u32 (t.f + clusterId lower * 256) ++ leBytes 8 t.record ++ u32 t.idx ++
    u32 t.teamsz ++ u32 t.header.toNat ++ u32 (modeOf t) ++ u32 (if d.ended then 1 else d.ngrp) ++
    u32 (if d.ended then 0 else d.nbank) ++ u32 d.nhamp ++
    u32 t.scratch ++ u32 (privIndex s t) ++ u32 0 ++ (List.range 8).flatMap (fun b => u32 (tget t.phase 0 b)) ++
    d.offs.1.flatMap u32)

/-- The sections, in order. -/
def sectionBytes (s : State) (lower slot : Nat) : List (List Byte) :=
  let t := s.team lower slot
  let hamp := (teamHamper s lower slot).flatMap hamperBytes
  if t.endedProv then
    [groupBytes {} {} 0 false false ((s.core lower).frame (scalarCtxNo slot)), [], [], [], hamp, [], [], []]
  else
    let spad : List Byte := (List.range t.extent).map (fun o => homeByte s (spadHome lower t o))
    let full : Nat → Bool := fun k =>
      let h := spadHome lower t (16 * k)
      (s.core (hSpadCore h)).gfull.contains (hSpadOff h / 16)
    let grans := (List.range ((t.extent / 16 + 7) / 8)).map (fun i =>
      BitVec.ofNat 8 (bitSet (fun j => 8 * i + j < t.extent / 16 && full (8 * i + j)) 8))
    let banks := (teamBanks s lower slot).flatMap (fun b => bankBytes s b.1 b.2)
    let slots := (List.range 64).flatMap (fun l => slotBytes (lslot t l))
    if t.g = 0 then
      [groupBytes t.ctx {} 0 true false ((s.core lower).frame (scalarCtxNo slot)),
        (List.range t.teamsz).flatMap (fun _ => leBytes 4 t.ctx.pc.toNat ++ leBytes 4 (if t.ctx.progress.blocked then 1 else 0) ++
          zeros (8 + 4 * t.regs)),
        zeros ((t.teamsz + 3) / 4 * 64), banks, hamp, slots, spad, grans]
    else
      let grp : Nat → Group := fun g => s.group lower slot g
      [(teamGroupsAt s lower slot).flatMap (fun g =>
          groupBytes (grp g).ctx (grp g) g false (t.producer == some g) ((s.core (grp g).core).frame (grp g).ctxNo)),
        (List.range t.teamsz).flatMap (fun x => threadBytes t (grp (x / t.g)) (x % t.g)),
        (List.range ((t.teamsz + 3) / 4)).flatMap (fun q => quadBytes (grp (4 * q / t.g)) (4 * q % t.g / 4)),
        banks, hamp, slots, spad, grans]

/-- The whole image. -/
def imageBytes (s : State) (lower slot : Nat) : List Byte :=
  (sectionBytes s lower slot).foldl (fun bs x => padTo (align64 bs.length) bs ++ x) (headerBytes s lower slot)

/-! ## An image region (R409) -/

/-- Whether the region lies in the function's extent and is mapped. -/
def regionOk (s : State) (f a len : Nat) : Bool :=
  a + len ≤ stackExtent s f && (List.range ((len + 0x7FF) / 0x800)).all (fun i => (stackHome s f (a + 0x800 * i)).isSome)

/-- Bytes written as the function's own data. -/
def regionWrite (f a : Nat) (bs : List Byte) (s : State) : State :=
  homeWrite 0 (bs.zipIdx.filterMap (fun b => (stackHome s f (a + b.2)).map (fun h => (h, b.1)))) s

/-- Bytes read as the function's own data; a block that fails is the cause. What a stopped stack holds up is asked apart
(`regionHeld`). -/
def regionRead (f a n : Nat) (s : State) : Try Nat (List Byte) :=
  match (span a n).mapM (stackHome s f) with
  | none => (.error cSliceViolation, s)
  | some hs =>
    let r := checkHomes hs { s with domains := [] }
    let t : State := { r.2 with domains := s.domains }
    match r.1 with
    | some c => (.error c, t)
    | none => (.ok (hs.map (homeByte t)), t)

/-- Whether any block of an image waits at a stopped stack (R470). -/
def regionHeld (s : State) (f a : Nat) : Bool :=
  let size := leNat ((span (a + 8) 4).map (fun x => ((stackHome s f x).map (homeByte s)).getD 0))
  s.domains.any (fun d => d.2 == 5) &&
    (List.range ((max 256 size + 63) / 64)).any (fun i => (stackHome s f (a + 64 * i)).any (fun h => rowsHeld s (hAddr h)))

/-! ## Reading back -/

/-- A number of `n` bytes at an offset of an image. -/
def im (bs : List Byte) (off n : Nat) : Nat := leNat ((bs.drop off).take n)
def imw (bs : List Byte) (off : Nat) : Nat := im bs off 4

/-- An image's header, as RESTG uses it. -/
structure ImgHead where
  func : Nat
  cluster : Nat
  record : Nat
  idx : Nat
  teamsz : Nat
  header : Nat
  mode : Nat
  nbank : Nat
  nhamp : Nat
  scratch : Nat
  privBlk : Nat
  offs : List Nat
  deriving DecidableEq, Repr

def readHead (bs : List Byte) : ImgHead :=
  { func := imw bs 0x0C % 32, cluster := bits (imw bs 0x0C) 12 8, record := im bs 0x10 8, idx := imw bs 0x18,
    teamsz := imw bs 0x1C, header := imw bs 0x20, mode := imw bs 0x24, nbank := imw bs 0x2C, nhamp := imw bs 0x30,
    scratch := imw bs 0x34, privBlk := imw bs 0x38, offs := (List.range 8).map (fun i => imw bs (0x60 + 4 * i)) }

def ImgHead.grant (h : ImgHead) : Nat := h.mode % 256
def ImgHead.pin (h : ImgHead) : Bool := bit h.mode 8
def ImgHead.prov (h : ImgHead) : Bool := bit h.mode 9
def ImgHead.pair (h : ImgHead) : Bool := bit h.mode 12
def ImgHead.ended (h : ImgHead) : Bool := bit h.mode 14
def ImgHead.regs (h : ImgHead) : Nat := 8 * (bits h.header 8 6 + 1)
def ImgHead.w16 (h : ImgHead) : Bool := bit h.header 3
def ImgHead.off (h : ImgHead) (k : Nat) : Nat := h.offs.getD k 0

/-- The size its header and counts give. -/
def ImgHead.size (h : ImgHead) (ngrp : Nat) : Nat :=
  ({ ended := h.ended, scalar := h.grant == 0, teamsz := h.teamsz, regs := h.regs, ngrp := ngrp, nbank := h.nbank,
     nhamp := h.nhamp, spad := (if h.pair then 2 * h.scratch else h.scratch) } : ImgDims).offs.2

/-- The scalar side of a group record. The FENCEs the context has issued are not in the image: every ATOM write after a resume
counts as a release (R371). -/
def readCtx (bs : List Byte) (at_ : Nat) : Ctx :=
  let sFull := im bs (at_ + 0x100) 8
  let vFull := im bs (at_ + 0x108) 8
  let win : Nat → Window := fun w =>
    let x := im bs (at_ + 0x160 + 16 * w) 8
    { kind := kindOf (bits x 58 56), frame := x % 2 ^ 56, team := imw bs (at_ + 0x168 + 16 * w) }
  { s := (List.range 64).map (fun r => (r, word (imw bs (at_ + 4 * r)))),
    sEmpty := (List.range 64).filter (fun r => !bit sFull r), vEmpty := (List.range 64).filter (fun r => !bit vFull r),
    fenced := 6, mr := word (imw bs (at_ + 0x110)), exc := word (imw bs (at_ + 0x114)), clk := word (imw bs (at_ + 0x118)),
    win := (List.range 16).map (fun w => (w, win w)), qmod := im bs (at_ + 0x120) 8 }

/-- The hidden copy of s56 to s63. -/
def readHidden (bs : List Byte) (at_ : Nat) : List Word := (List.range 8).map (fun i => word (imw bs (at_ + 0x2E0 + 4 * i)))

/-- A frame from its words, in a team slot. -/
def readFrame (bs : List Byte) (at_ tslot : Nat) : Frame :=
  let w : Nat → Nat := fun k => imw bs (at_ + 0x300 + 4 * k)
  { held := bit (w 0) 30, handling := bit (w 0) 29, waitPage := bit (w 0) 28, tslot := tslot, lane := bits (w 0) 23 16,
    cause := bits (w 0) 8 0, tpc := word (w 1), rpc := word (w 2), teamx := w 3,
    gang := BitVec.ofNat 64 (im bs (at_ + 0x310) 8), addr := im bs (at_ + 0x318) 8, record := im bs (at_ + 0x320) 8,
    hidden := readHidden bs at_, live := w 0 != 0 }

/-- Lanes of a mask from bit `from_`, `n` of them. -/
def sliceMask (m : Nat) (from_ n : Nat) : BitVec 64 := BitVec.ofNat 64 ((m >>> from_) % 2 ^ n)

/-- The state of a restored group's threads: (lane, PC, state, join slot, gang number). -/
def readThreads (bs : List Byte) (h : ImgHead) (first n : Nat) : List (Nat × Word × Nat × Nat × Nat) :=
  (List.range n).filterMap (fun l =>
    if h.teamsz ≤ first + l then none
    else
      let at_ := h.off 1 + (first + l) * (16 + 4 * h.regs)
      let st := imw bs (at_ + 4)
      some (l, word (imw bs at_), bits st 1 0, bits st 4 2, bits st 21 16))

/-- The gangs of a restored group: its running threads by gang number, or by PC where they differ. -/
def readGangs (ths : List (Nat × Word × Nat × Nat × Nat)) (now : Nat) : List Gang :=
  let run := ths.filter (fun t => t.2.2.1 < 2)
  let keys := (run.map (fun t => (t.2.2.2.2, t.2.1))).eraseDups
  keys.zipIdx.map (fun k =>
    { id := k.2, pc := k.1.2, lanes := maskOf ((run.filter (fun t => t.2.2.2.2 == k.1.1 && t.2.1 == k.1.2)).map (·.1)),
      born := now })

/-- The set join slots of an old group record that fall to a new group (R126, R129, R197). -/
def readJoins (bs : List Byte) (h : ImgHead) (at_ shift g : Nat) (ths : List (Nat × Word × Nat × Nat × Nat)) :
    Tbl (Option JoinSlot) :=
  let blocks := if h.w16 then List.range (g / 16) else [0]
  blocks.flatMap (fun b =>
    let old := if h.w16 then b + shift / 16 else 0
    (List.range 8).filterMap (fun j =>
      let a := if old = 0 then at_ + 0x260 + 16 * j else at_ + 0x400 + 128 * (old - 1) + 16 * j
      if imw bs a = 0 then none
      else
        let mine : Nat → Bool := fun l => !h.w16 || l / 16 == b
        let parked := ths.filter (fun t => t.2.2.1 = 2 && t.2.2.2.1 = j && mine t.1)
        let slot : JoinSlot := { pc := word (imw bs (a + 4)), mask := sliceMask (im bs (a + 8) 8) shift g,
                                 parked := maskOf (parked.map (·.1)) }
        some (slotKey b j, some slot)))

/-- The return stack of quad k of the team, as quad q of its group. -/
def readQuad (bs : List Byte) (h : ImgHead) (k q : Nat) : List RetEntry :=
  ((List.range 8).filterMap (fun i =>
    let a := h.off 2 + 64 * k + 8 * i
    let m := imw bs (a + 4) % 16
    if m = 0 then none else some ({ pc := word (imw bs a), lanes := BitVec.ofNat 64 m <<< (4 * q) } : RetEntry))).reverse

/-- New group n of grant G from an image saved at grant h.grant (R126), with what the function kept of the team. A HELD or WAITPAGE
frame keeps the group stopped (R397). The lanes of a running handler are those kept or, of an image that this function has not
saved, the ones that the thread records show running. -/
def readGroup (bs : List Byte) (h : ImgHead) (t : Team) (kept : SavedTeam) (lower G n ctxNo port now : Nat) : Group × Frame :=
  let k := h.grant / G
  let i := n % k
  let shift := i * G
  let at_ := h.off 0 + 1536 * (n / k)
  let ths := readThreads bs h (n * G) G
  let flags := im bs (at_ + 0x128) 8
  let lead := i == 0
  let fr := readFrame bs at_ (if groupCore lower t n G = lower then 0 else 1)
  let gang := sliceMask (im bs (at_ + 0x310) 8) shift G
  let handling := match kept.handlers.getD (n / k) none with
    | some m => sliceMask m.toNat shift G
    | none => maskOf ((ths.filter (fun t => t.2.2.1 = 0)).map (·.1))
  let ctx := readCtx bs at_
  let inHandler := bit flags 2 && handling != 0
  let ctx := if bit flags 2 && !inHandler then
      { (readHidden bs at_).zipIdx.foldl (fun c p => c.writeS (56 + p.2) p.1) ctx with mr := ctx.readS 59 }
    else ctx
  let frame : Frame := if fr.live && gang != 0 then
      { fr with gang := gang, lane := (if shift ≤ fr.lane && fr.lane < shift + G then fr.lane - shift else (lanesOf gang).headD 0) }
    else if inHandler then { handling := true, gang := handling, hidden := readHidden bs at_ }
    else {}
  let g : Group :=
    { ctx := ctx, present := presentLanes h.teamsz n G,
      finished := maskOf ((ths.filter (fun t => t.2.2.1 = 3)).map (·.1)),
      v := ths.flatMap (fun x => (List.range h.regs).map (fun r =>
        (x.1 * 64 + r, word (imw bs (h.off 1 + (n * G + x.1) * (16 + 4 * h.regs) + 16 + 4 * r))))),
      p := ths.flatMap (fun x => ((List.range 7).filter (fun q =>
        bit (imw bs (h.off 1 + (n * G + x.1) * (16 + 4 * h.regs) + 4)) (9 + q))).map (fun q => (x.1 * 8 + q + 1, true))),
      gangs := readGangs ths now, nextGang := (readGangs ths now).length, joins := readJoins bs h at_ shift G ths,
      parkPc := (ths.filter (fun x => x.2.2.1 = 2)).map (fun x => (x.1, x.2.1)),
      ret := (List.range (G / 4)).filterMap (fun q => match readQuad bs h (n * G / 4 + q) q with
        | [] => none
        | es => some (q, es)),
      arrived := (List.range 8).filterMap (fun b =>
        let a := imw bs (at_ + 0x130 + 4 * b)
        if bit a 0 then some (b, some (a / 2)) else none),
      tokenCauses := if lead then (List.range 8).map (fun c => (c, im bs (at_ + 0x150 + 2 * c) 2)) else [],
      matrixFail := if lead && bit flags 3 then bits flags 17 9 else 0,
      resl := if G < h.grant then word h.grant else kept.resl.getD (n / k) 0,
      ctxNo := ctxNo, port := port, core := groupCore lower t n G,
      stopped := frame.live, handler := if inHandler then some handling else none }
  (g, frame)

/-- The slots of an image: (logical slot, state code, cause, source). -/
def readSlots (bs : List Byte) (h : ImgHead) : List (Nat × Nat × Nat × Nat) :=
  (List.range 64).filterMap (fun l =>
    let a := h.off 5 + 16 * l
    if imw bs a = 0 then none else some (l, imw bs a, imw bs (a + 4), im bs (a + 8) 8))

/-- The Hamper entries of an image, for a team slot. -/
def readHamper (bs : List Byte) (h : ImgHead) (team f : Nat) : List HamperEntry :=
  (List.range h.nhamp).map (fun i =>
    let a := h.off 4 + 80 * i
    let m := im bs (a + 8) 8
    { team := team, f := f, provisional := true, line := im bs a 8 / 64,
      bytes := (List.range 64).filterMap (fun k => if bit m k then some (k, some ((bs.drop (a + 16 + k)).headD 0)) else none) })

/-- A bank of an image: number, and its entry under a re-slice by `k`, for a team. -/
def readBank (bs : List Byte) (h : ImgHead) (i k team : Nat) : Nat × AccBank × Nat :=
  let a := h.off 3 + 1040 * i
  let owner := im bs (a + 6) 2
  let holder := im bs (a + 8) 2
  (im bs a 2,
    { team := team, first := im bs (a + 2) 2, len := 0, holder := holder * k, band := im bs (a + 4) 2,
      owner := if owner = 0xFFFF then none else some (owner * k) },
    a + 16)

end Sys2Proof.Machine
end

