-- ==== Sys2Proof/Machine/Preempt.lean ====
section
/-! DEFINITION. Machine/Preempt.lean: SAVEG and RESTG (R409 to R414), the save directory (R416, R417), saving under SAVENOW (R407,
R408), and the world switch (R418, R421). -/

namespace Sys2Proof.Machine

/-! ## SAVEG (R410) -/

/-- Whether a context of a team holds a NEW frame (R397). -/
def newFrame (s : State) (lower slot : Nat) : Bool :=
  (teamFrames s lower slot).any (fun x => ((s.core x.1).frame x.2).new)

/-- Whether everything a team has issued has performed, and no instruction of it is part-way. -/
def saveReady (s : State) (lower slot : Nat) : Bool :=
  quiet s lower slot && storesAnswered s lower slot &&
    (s.groups.filter (fun g => g.1 / 128 == teamKey lower slot)).all (fun g => g.2.gangs.all (fun x => !x.progress.mid))

/-- A BAR that waits has not issued (R410): where its phase stands, its arrival is taken back; where the phase has completed,
the BAR has, and from the last word of its slot it runs off the end (R134). Where a gang of the group has trapped, the others wait
as they are. -/
def undoBar (lower slot g : Nat) (s : State) (ga : Gang) : State :=
  let gr := s.group lower slot g
  let e : Env := { ref := .group lower slot g, core := gr.core, lower := lower, slot := slot, gi := g, team := s.team lower slot,
                   ctx := gr.ctx, group := gr, gang := ga }
  if !ga.progress.started || ((s.core gr.core).frame gr.ctxNo).live then s
  else match (fetchWords s e).toOption.bind (fun ws => (decodeWords ws).toOption) with
    | some (.bar a) =>
      let past : Bool := ga.progress.phase < phaseOf e a.toNat s
      crossCheck e past (nextPc e 1) (s.setGroup lower slot g
        { gr with
          arrived := tput gr.arrived a.toNat none
          gangs := gr.gangs.map (fun x => if x.id == ga.id then
            { x with pc := if past then x.pc + 4 else x.pc, progress := {} } else x) })
    | _ => s

def undoBars (lower slot : Nat) (s : State) : State :=
  (teamGroupsAt s lower slot).foldl (fun s g => (s.group lower slot g).gangs.foldl (undoBar lower slot g) s) s

/-- The lines a team's acquires would still have to pull are pulled, and its dirty lines reach their homes, so that it finds
its own stores wherever it resumes. -/
def settleLines (lower slot : Nat) (s : State) : State :=
  let t := s.team lower slot
  let lines := t.ctx.collected ++ (teamGroupsAt s lower slot).flatMap (fun g => (s.group lower slot g).ctx.collected)
  let s := lines.eraseDups.foldl pullLine s
  (teamCores lower t).foldl (fun s c => writeBackTeam c (teamKey lower slot) s) s

/-- What the function keeps of a team beside its image (log 76). -/
def keptOf (s : State) (lower slot : Nat) : SavedTeam :=
  let t := s.team lower slot
  let gs := (teamGroupsAt s lower slot).map (s.group lower slot)
  { record := t.record, idx := t.idx, nteam := t.nteam, restored := t.restored, remoteFail := t.remoteFail,
    hamperStall := t.hamperStall, aborts := t.aborts, resl := gs.map (·.resl), handlers := gs.map (·.handler) }

/-- The image of a team that has no instruction part-way is written and what the team holds is freed; its private block stays with it. -/
def writeImage (a lower slot : Nat) (s : State) : State :=
  let s := if (s.team lower slot).prov then s else commitHamper lower slot s
  let s := settleLines lower slot s
  let t := s.team lower slot
  let s := regionWrite t.f a (imageBytes s lower slot) s
  let s := s.setFunc t.f { s.func t.f with saved := keptOf s lower slot :: (s.func t.f).saved }
  let s := freeResources lower slot (discardFrames lower slot (dropHamper lower slot s))
  countEvent t.f 0x0A 1 (freeTeam lower slot true s)

/-- The refusals of SAVEG, in order: 0 where the team can be saved. -/
def saveRefusal (s : State) (core a b : Nat) : Nat :=
  let slot := bits b 3 0
  let t := s.team core slot
  let units := bits b 15 8
  if t.status == .free || (t.status == .ending && !t.endedProv) then 1
  else if units = 0 || a % 65536 != 0 || !regionOk s t.f a (65536 * units) then 4
  else if newFrame s core slot then 3
  else if 65536 * units < imageSize s core slot then 2
  else 0

/-- SAVEG: a result, or none while operations of the team are outstanding; the team no longer issues. -/
def saveTeam (core a b : Nat) (s : State) : Option Nat × State :=
  let slot := bits b 3 0
  let stop : Bool → State → State := fun x s => s.setTeam core slot { s.team core slot with saving := x }
  match saveRefusal s core a b with
  | 0 =>
    if (s.team core slot).endedProv || saveReady s core slot then
      let s := undoBars core slot s
      if newFrame s core slot then (some 3, stop false s)
      else (some ((imageSize s core slot + 65535) / 65536 * 256), writeImage a core slot s)
    else (none, stop true s)
  | r => (some r, if r = 1 then s else stop false s)

/-! ## RESTG (R414) -/

/-- What the function kept of a saved team; of an image that it has not saved, NTEAM is the record's (R38) and the rest is what the
image tells. -/
def keptTeam (s : State) (h : ImgHead) : SavedTeam :=
  ((s.func h.func).saved.find? (fun x => x.record == h.record && x.idx == h.idx)).getD
    { record := h.record, idx := h.idx, nteam := recNteam s h.func h.record, hamperStall := bit h.mode 11 && bit h.mode 10,
      aborts := if bits h.mode 20 16 = 0 then [] else [(0, bits h.mode 20 16)] }

/-- A saved team is saved no longer: restored, or squashed. -/
def forgetImage (f r idx : Nat) (s : State) : State :=
  let m : Mark := { f := f, record := r, idx := idx }
  let s := s.setFunc f { s.func f with saved := (s.func f).saved.filter (fun x => !(x.record == r && x.idx == idx)) }
  { s with cores := s.cores.map (fun c => (c.1, { c.2 with resumeWait := c.2.resumeWait.filter (· != m) })) }

/-- The team an image describes, in a team slot. -/
def imageTeam (s : State) (h : ImgHead) (slot upper : Nat) : Team :=
  let obj := (s.func h.func).loaded.find? (fun l => l.1 == recKernel s h.func h.record)
  let k := obj.map (fun o => readKernel s h.func o.2.2 o.1)
  let node := (List.range (nnode s h.func)).find? (fun n => (readBasket s h.func n).template == h.record)
  { status := .resuming, f := h.func, record := h.record, idx := h.idx, teamsz := h.teamsz,
    nteam := (keptTeam s h).nteam, header := word h.header, regs := h.regs, scratch := h.scratch,
    spad := slot * 0x80000, spad2 := upper * 0x80000, entry := (k.map (fun k => k.landPc k.entry)).getD 0,
    handlerPc := (k.map (fun k => k.landPc k.handler)).getD 0, idem := bit h.header 4, w16 := h.w16, pair := h.pair,
    upperSlot := upper, prov := h.prov, stall := bit h.mode 11 && !bit h.mode 10,
    hamperStall := (keptTeam s h).hamperStall, aborts := (keptTeam s h).aborts, remoteFail := (keptTeam s h).remoteFail,
    pin := h.pin, priv := privBase s h.func h.privBlk, stamp := s.time, node := node }

/-- Free Hamper entries of the cores a team would take. -/
def hamperFree (s : State) (cores : List Nat) : Nat := (cores.map (fun c => hamperSize c - (s.core c).hamper.length)).sum

/-- What the resuming core must have free but for group contexts: the team slots it would take. The held lines of a confirmed team
need no entries of the Hamper (R97, R414). -/
def restoreSpace (s : State) (core : Nat) (conf : Bool) (bs : List Byte) (h : ImgHead) : Option (Nat × Nat) :=
  match freeTeamSlot s core, (if h.pair then freeTeamSlot s (core + 1) else some 0) with
  | some sl, some up =>
    let t := imageTeam s h sl up
    let segs := (readSlots bs h).length
    let banks := (List.range h.nbank).map (fun i => readBank bs h i 1 0)
    let bankFree := banks.all (fun b =>
      (accBank s (if h.grant = 0 then core else groupCore core t b.2.1.holder h.grant) b.1).isNone)
    let room := coreRoom s core (regKb h.regs (if h.pair then 1024 else h.teamsz)) h.scratch segs &&
      (!h.pair || coreRoom s (core + 1) (regKb h.regs (h.teamsz - 1024)) h.scratch segs)
    let hamp := conf || h.nhamp ≤ hamperFree s (teamCores core t)
    if h.ended then (if hamp then some (sl, up) else none)
    else if !room || !bankFree || (h.prov && !hamp) then none
    else some (sl, up)
  | _, _ => none

/-- The new grant, where the team has groups: none while contexts are lacking (R125). -/
def restoreGrant (s : State) (core : Nat) (h : ImgHead) (r : Nat × Nat) : Option Nat :=
  if h.ended || h.grant = 0 then some 0 else resumeGrant s core (imageTeam s h r.1 r.2) h.grant h.pin

/-- What the resuming core must have free, with the grant: none answers 1. -/
def restoreRoom (s : State) (core : Nat) (conf : Bool) (bs : List Byte) (h : ImgHead) : Option (Nat × Nat × Nat) :=
  (restoreSpace s core conf bs h).bind (fun r => (restoreGrant s core h r).map (fun g => (r.1, r.2, g)))

/-- Where only group contexts are lacking, the resume waits, and DISP finds no room on its cores meanwhile (R112). -/
def awaitContexts (core : Nat) (conf : Bool) (bs : List Byte) (h : ImgHead) (s : State) : State :=
  if (restoreSpace s core conf bs h).isSome && (restoreRoom s core conf bs h).isNone then
    (if h.pair then [core, core + 1] else [core]).foldl (fun s c =>
      let m : Mark := { f := h.func, record := h.record, idx := h.idx }
      putCore c (fun co => { co with resumeWait := co.resumeWait.filter (· != m) ++ [m] }) s) s
  else s

/-- The Hamper records of an image: confirmed ones become dirty data of the core's L1, others go back into the Hamper (R97, R98);
those that the lower core of a pair has no entry for stand on the upper one. -/
def putHamper (core slot : Nat) (conf : Bool) (bs : List Byte) (h : ImgHead) (s : State) : State :=
  let es := readHamper bs h (teamKey core slot) h.func
  let n := if conf then es.length else hamperFree s [core]
  let s := putCore core (fun c => { c with hamper := c.hamper ++ es.take n }) s
  let s := if es.length ≤ n then s else putCore (core + 1) (fun c => { c with hamper := c.hamper ++ es.drop n }) s
  if conf then commitHamper core slot s else s

/-- The group contexts of a restored team. -/
def restoreGroup (bs : List Byte) (h : ImgHead) (kept : SavedTeam) (core slot G : Nat) (s : State) (n : Nat) : State :=
  let t := s.team core slot
  let c := groupCore core t n G
  let ctxNo := (freeCtxs s c G).headD 0
  let (g, fr) := readGroup bs h t kept core G n ctxNo (choosePort s c) s.time
  let fr := if fr.live then { fr with tslot := tslotOn c core slot t } else fr
  setFrame c ctxNo fr (s.setGroup core slot n (completeAll s.time g))

/-- The accumulator banks of an image, at their saved numbers, to the first of the new groups (R126). -/
def restoreBanks (bs : List Byte) (h : ImgHead) (core slot k G : Nat) (s : State) : State :=
  let t := s.team core slot
  let xs := (List.range h.nbank).map (fun i =>
    let b := readBank bs h i k (teamKey core slot)
    (groupCore core t b.2.1.holder G, b))
  xs.foldl (fun s x =>
    let (c, n, bank, a) := x
    let len := (xs.filter (fun y => y.1 == c && y.2.2.1.first == bank.first)).length
    putCore c (fun co =>
      { co with accBanks := tput co.accBanks n (some { bank with len := len }),
                acc := (List.range 256).foldl (fun m i => tput m (n * 256 + i) (word (imw bs (a + 4 * i)))) co.acc }) s) s

/-- The scratchpad bytes and granules of an image. -/
def restoreSpad (bs : List Byte) (h : ImgHead) (core slot : Nat) (s : State) : State :=
  let t := s.team core slot
  let s := (List.range t.extent).foldl (fun s o =>
    let hm := spadHome core t o
    putCore (hSpadCore hm) (fun c => { c with spad := writeByte c.spad (hSpadOff hm) ((bs.drop (h.off 6 + o)).headD 0) }) s) s
  (List.range (t.extent / 16)).foldl (fun s k =>
    let hm := spadHome core t (16 * k)
    let g := hSpadOff hm / 16
    let full := bit (im bs (h.off 7 + k / 8) 1) (k % 8)
    putCore (hSpadCore hm) (fun c =>
      { c with gfull := if full then setFull g c.gfull else setEmpty g c.gfull }) s) s

/-- The slots of an image are bound; a LANDED one is fetched again from its source (R136, R139, R414). -/
def restoreSlot (core slot : Nat) (s : State) (x : Nat × Nat × Nat × Nat) : State :=
  let (l, st, cause, src) := x
  if st = 3 then setLslot core slot l (fun y => { y with st := .failed, cause := cause, source := src }) (bindSlot core slot l s)
  else startLanding core slot l src none s

/-- The global windows of a context are probed again (R267, R413). -/
def probeCtx (s : State) (core f : Nat) (c : Ctx) : Ctx :=
  { c with win := c.win.map (fun w => (w.1, if w.2.kind == .global then probe s core f w.2 else w.2)) }

/-- The windows of a restored team are probed again, on the core of each group. -/
def probeTeam (core slot : Nat) (s : State) : State :=
  let t := s.team core slot
  let s := s.setTeam core slot { t with ctx := probeCtx s core t.f t.ctx }
  (teamGroupsAt s core slot).foldl (fun s n =>
    let g := s.group core slot n
    s.setGroup core slot n { g with ctx := probeCtx s g.core t.f g.ctx }) s

/-- A restored team, once room is found. -/
def rebuildTeam (core slot upper G : Nat) (conf restored : Bool) (bs : List Byte) (h : ImgHead) (s : State) : State :=
  let k := if G = 0 then 1 else h.grant / G
  let ngrp := if G = 0 then 0 else (h.teamsz + G - 1) / G
  let flags0 : Nat → Nat := fun g => im bs (h.off 0 + 1536 * g + 0x128) 8
  let producer := ((List.range (ngrp / k + 1)).find? (fun g => g * k < ngrp && bit (flags0 g) 1)).map (· * k)
  let base := imageTeam s h slot upper
  let kept := keptTeam s h
  let t : Team :=
    { base with
      prov := base.prov && !conf, g := G, ngrp := ngrp, producer := producer, restored := restored,
      phase := (List.range 8).map (fun b => (b, imw bs (0x40 + 4 * b))),
      chunk := if recSpec s h.func h.record && base.node.isNone then chunkOf s core h.func h.record h.idx else none }
  let s := s.setTeam core slot t
  let s := (teamCores core t).foldl (fun s c => dropClean c (fun _ b => b.f == t.f) s) s
  let s := restoreSpad bs h core slot s
  let s := if G = 0 then
      let a := h.off 0
      let c := { readCtx bs a with
                 pc := word (imw bs (h.off 1))
                 p := ((List.range 7).filter (fun q => bit (im bs (a + 0x128) 8) (24 + q))).map (fun q => (q + 1, true)) }
      let fr := readFrame bs a slot
      setFrame core (scalarCtxNo slot) fr (s.setTeam core slot { s.team core slot with ctx := c, stopped := fr.live })
    else (List.range ngrp).foldl (restoreGroup bs h kept core slot G) s
  let s := restoreBanks bs h core slot k (if G = 0 then 1 else G) s
  let s := putHamper core slot conf bs h s
  beginCheck core slot ((readSlots bs h).foldl (restoreSlot core slot)
    (resolveTeamRetry h.func h.record h.idx (probeTeam core slot s)))

/-- A confirmed team that was restored after its end retires (R66, R104, R414): the kept failure first. -/
def retireImage (core slot : Nat) (s : State) : State :=
  let t := s.team core slot
  let s := freeTeam core slot false s
  let s := if t.kept = 0 then s else reportFailure core t.f { t with prov := false } t.kept s
  (raiseEvent core 1 s).due [retireDue core slot { t with endKind := .exit } false]

/-- A restored ended provisional team (R414), whose private block went back when it ended: confirmed, it retires at once, a kept
failure first; otherwise it awaits settlement. What the Hamper records of a confirmed one hold reaches its home, and is answered, before the team retires (R66, R97, R451 step 4). -/
def rebuildEnded (core slot upper : Nat) (conf restored : Bool) (bs : List Byte) (h : ImgHead) (s : State) : State :=
  let fr := readFrame bs (h.off 0) slot
  let t : Team := { imageTeam s h slot upper with status := .ending, endedProv := true, kept := fr.cause, restored := restored }
  let s := setFrame core (scalarCtxNo slot) { fr with new := false, held := false } (putHamper core slot conf bs h (s.setTeam core slot t))
  if !conf then s
  else
    let s := (teamCores core t).foldl (fun s c => writeBackTeam c (teamKey core slot) s) s
    if storesAnswered s core slot then retireImage core slot s else s.due [fw core t.f (.retire core slot) [t.record, t.idx, 0, 2]]

/-- RESTG of an image all of whose bytes are read: the result code and the new grant (R414). -/
def restoreBytes (core a : Nat) (conf restored : Bool) (h : ImgHead) (bs : List Byte) (s : State) : (Nat × Nat) × State :=
  let f := servedBy s core
  if h.func != f || h.cluster != clusterId core then ((3, 0), s)
  else if h.pair && core % 2 = 1 then ((3, 0), s)
  else (restoreRoom s core conf bs h).elim ((1, 0), awaitContexts core conf bs h s) (fun r : Nat × Nat × Nat =>
    let again := restored || (keptTeam s h).restored
    let s := if h.ended then rebuildEnded core r.1 r.2.1 conf again bs h s
      else rebuildTeam core r.1 r.2.1 r.2.2 conf again bs h s
    ((0, r.2.2), forgetImage f h.record h.idx (regionWrite f (a + 4) (leBytes 4 2) s)))

/-- RESTG of an image whose header is read. -/
def restoreHead (core a : Nat) (conf restored : Bool) (hd : List Byte) (s : State) : (Nat × Nat) × State :=
  let h := readHead hd
  if imw hd 0 != 0x47534157 || imw hd 4 != 1 || imw hd 8 != h.size (imw hd 0x28) then ((2, 0), s)
  else
    let r := regionRead (servedBy s core) a (imw hd 8) s
    r.1.toOption.elim ((2, 0), r.2) (fun bs => restoreBytes core a conf restored h bs r.2)

/-- RESTG of an image (R414): the result code and the new grant. -/
def restoreTeam (core a : Nat) (conf restored : Bool) (s : State) : (Nat × Nat) × State :=
  let r := regionRead (servedBy s core) a 256 s
  r.1.toOption.elim ((2, 0), r.2) (fun hd => restoreHead core a conf restored hd r.2)

/-! ## The save directory (R416) -/

def dirAt (s : State) (f : Nat) : Nat := s.fcsr64 f 0x062 % 2 ^ 56
def dirSize (s : State) (f : Nat) : Nat := if dirAt s f = 0 then 0 else bits (s.fcsr f 0x064).toNat 11 0 + 1
def dirEntry (s : State) (f i : Nat) : Nat := dirAt s f + 32 * i
def dirState (s : State) (f i : Nat) : Nat := ag32 s f (dirEntry s f i) % 4
def dirFirst (s : State) (f i : Nat) : Nat := ag32 s f (dirEntry s f i + 4) % 65536
def dirCount (s : State) (f i : Nat) : Nat := ag32 s f (dirEntry s f i + 4) / 65536
def dirRec (s : State) (f i : Nat) : Nat := ag64 s f (dirEntry s f i + 16)
/-- The image of an entry. -/
def dirImage (s : State) (f i : Nat) : Nat := s.fcsr64 f 0x065 % 2 ^ 56 + 65536 * dirFirst s f i

/-- Entries in a state. -/
def dirIn (s : State) (f st : Nat) : List Nat := (List.range (dirSize s f)).filter (fun i => dirState s f i = st)

/-- The first unit at which a run of `n` free units begins (R416). -/
def freeUnits (s : State) (f n : Nat) : Option Nat :=
  let used := ((List.range (dirSize s f)).filter (fun i => dirState s f i != 0)).map (fun i => (dirFirst s f i, dirCount s f i))
  (List.range (bits (s.fcsr f 0x067).toNat 15 0 + 1 - n)).find? (fun u =>
    used.all (fun x => u + n ≤ x.1 || x.1 + x.2 ≤ u))

/-- What a save is for: 1 a world switch or an amendment, 2 SAVENOW; the STATE its entry takes. -/
def saveDue (core f slot i units a purpose : Nat) : Due :=
  fw core f (.saveg { d := 0, a := 0, b := 0 }) [a, units * 256 + slot, i, purpose]

/-- A team is entered in the directory entry and the units found for it, if they were, and saved (R416). -/
def saveAt (f lower slot purpose n : Nat) (entry unit : Option Nat) (s : State) : Bool × State :=
  match entry, unit with
  | some i, some u =>
    if 255 < n then (false, s)
    else
      let t := s.team lower slot
      let d := dirEntry s f i
      let s := put32 f d 3 (put32 f (d + 4) (u + n * 65536) (put32 f (d + 8) t.idx (put64 f (d + 16) t.record s)))
      let s := s.setTeam lower slot { t with saving := true }
      (true, s.due [saveDue lower f slot i n (s.fcsr64 f 0x065 % 2 ^ 56 + 65536 * u) purpose])
  | _, _ => (false, s)

/-- A team is entered in the directory and saved; where there is no room it is not (R416). -/
def saveOne (f lower slot purpose : Nat) (s : State) : Bool × State :=
  let n := (imageSize s lower slot + 65535) / 65536
  saveAt f lower slot purpose n (dirIn s f 0).head? (freeUnits s f n) s

/-- Whether a team can be saved: it has not come to its end, or has ended provisional. -/
def savable (t : Team) : Bool := t.status != .free && (t.status != .ending || t.endedProv) && !t.saving

/-! ## Restoring saved teams (R416, R417) -/

/-- How the settlement of its launch bears on a saved team (R98): 0 not at all, 1 confirmed, 2 squashed. -/
def imageFate (s : State) (f a : Nat) : Nat :=
  (regionRead f a 256 s).1.toOption.elim 0 (fun hd =>
    let h := readHead hd
    if !h.prov || !recSettled s f h.record then 0 else if h.idx < recNteam s f h.record then 1 else 2)

/-- Whether an image may go to a core: it stands in the image's cluster, its agent acts, and nothing takes the core away. -/
def mayRestoreOn (s : State) (f : Nat) (h : ImgHead) (c : Nat) : Bool :=
  clusterId c == h.cluster && !(s.core c).agentStopped && !(h.pair && c % 2 = 1) &&
    !(bit (s.fcsr f 0x061).toNat 31 && bit (s.fcsr64 f 0x102) (c / 8) && !isStack c) && !(s.func f).leaving.contains c

/-- An image with the first serving core that has what `room` asks for. -/
def restoreOn (s : State) (f a : Nat) (room : Nat → List Byte → ImgHead → Bool) : Option (Nat × List Byte × ImgHead) :=
  (regionRead f a 256 s).1.toOption.bind (fun hd =>
    let h := readHead hd
    (regionRead f a (imw hd 8) s).1.toOption.bind (fun bs =>
      ((servingCores s f).find? (fun c => mayRestoreOn s f h c && room c bs h)).map (fun c => (c, bs, h))))

/-- Whether the settlement of its launch has confirmed a saved team. -/
def imageConf (s : State) (f a : Nat) : Bool := imageFate s f a == 1

/-- The serving core on which an image can be restored now. -/
def restoreCore (s : State) (f a : Nat) : Option Nat :=
  (restoreOn s f a (fun c bs h => (restoreRoom s c (imageConf s f a) bs h).isSome)).map (·.1)

/-- An image that no core can take now waits on the first one that lacks nothing but contexts (R112). -/
def awaitRestore (f a : Nat) (s : State) : State :=
  match restoreOn s f a (fun c bs h => (restoreSpace s c (imageConf s f a) bs h).isSome) with
  | none => s
  | some (c, bs, h) => if s.cores.any (fun x => x.2.resumeWait.contains { f := h.func, record := h.record, idx := h.idx }) then s
      else awaitContexts c (imageConf s f a) bs h s

/-- An entry is taken and its team restored, where a core has room for it; else the resume waits. -/
def restoreEntry (f : Nat) (s : State) (i : Nat) : State :=
  let st := dirState s f i
  let a := dirImage s f i
  if imageFate s f a = 2 then s
  else match restoreCore s f a with
    | none => awaitRestore f a s
    | some c => (put32 f (dirEntry s f i) 3 s).due [fw c f (.restg { d := 0, a := 0, b := 0 })
        [a, (if imageConf s f a then 1 else 0), i, st]]

/-- Every team saved by a world switch or an amendment, for the resident function (R417). -/
def retryRestores (f : Nat) (s : State) : State :=
  if bit (s.fcsr f 0x061).toNat 31 || !(s.func f).worldResident then s
  else (dirIn s f 1).foldl (restoreEntry f) s

/-- The images of a launch that was resumed after SAVENOW (R408). -/
def restoreLaunch (f r : Nat) (s : State) : State :=
  ((dirIn s f 2).filter (fun i => dirRec s f i = r)).foldl (restoreEntry f) s

/-- A squashed image is freed (R98). -/
def reapImages (core f : Nat) (s : State) : State :=
  (dirIn s f 1).foldl (fun s i =>
    let a := dirImage s f i
    match (regionRead f a 256 s).1 with
    | .error _ => s
    | .ok hd =>
      let h := readHead hd
      if imageFate s f a != 2 then s
      else
        let s := retractChunk core f h.record h.idx (put32 f (dirEntry s f i) 0 s)
        let s := forgetImage f h.record h.idx (dropMarks { f := f, record := h.record, idx := h.idx } s)
        let s := if h.ended then s
          else s.setFunc f { s.func f with privUsed := (s.func f).privUsed.filter (· != h.privBlk) }
        dropLive f h.record s) s

/-! ## SAVEG and RESTG as instructions and as firmware -/

/-- After a firmware save (R408, R416): the entry takes its STATE, or is freed; a team that had been restored before is counted
already. -/
def saveDone (core f r : Nat) (launch : Nat) (again : Bool) (s : State) : State :=
  let i := fwArg s 2
  let purpose := fwArg s 3
  if r % 256 != 0 then put32 f (dirEntry s f i) 0 s
  else
    let s := put32 f (dirEntry s f i) purpose s
    if purpose = 2 && again then s
    else if purpose = 2 then countDone f launch ((atomAddW f (rNSAVED launch) 1 s).2)
    else if bit (s.fcsr f 0x061).toNat 31 then s
    else (raiseEvent core 1 s).due [{ instr := .kick f 0 }]

/-- SAVEG (R410). -/
def savegBody (r : SysxArgs) (e : Env) (s : State) : Eff :=
  if s.request.isSome then
    let f := (s.request.map (·.f)).getD 0
    let t := s.team e.core (fwArg s 1 % 16)
    match saveTeam e.core (fwArg s 0) (fwArg s 1) s with
    | (none, s) => .wait (s.due [fw e.core f (.saveg r) [fwArg s 0, fwArg s 1, fwArg s 2, fwArg s 3]])
    | (some v, s) => .done 1 (saveDone e.core f v t.record t.restored s)
  else sysxNeeds r e s (
    let b := (e.ctx.readS r.b.toNat).toNat
    if bits b 31 16 != 0 || bits b 7 4 != 0 then .trap cReserved none 0 s
    else match saveTeam e.core (pairAddr e r.a.toNat) b s with
      | (none, s) => .wait s
      | (some v, s) => .done 1 (putS e r.d.toNat (word v) s))

def execSaveg (r : SysxArgs) (s : State) : Host.Outcome State Fault Refusal := agentRun (gSysx 1) (savegBody r) s

/-- After a firmware restore (R98, R416): the entry is free, or stands as it stood; where the core had no room after all, another
core is tried. -/
def restDone (f v conf : Nat) (launch : Nat) (s : State) : State :=
  let i := fwArg s 2
  if v != 0 then
    let s := put32 f (dirEntry s f i) (fwArg s 3) s
    if v = 1 then restoreEntry f s i else s
  else
    let s := put32 f (dirEntry s f i) 0 s
    if conf = 1 then dropLive f launch s else s

/-- RESTG (R414). -/
def restgBody (r : SysxArgs) (e : Env) (s : State) : Eff :=
  if s.request.isSome then
    let f := (s.request.map (·.f)).getD 0
    let i := fwArg s 2
    let launch := dirRec s f i
    let conf := fwArg s 1
    let (v, t) := restoreTeam e.core (fwArg s 0) (conf = 1) (fwArg s 3 = 2) s
    .done 1 (restDone f v.1 conf launch t)
  else sysxNeeds r e s (
    let b := (e.ctx.readS r.b.toNat).toNat
    if bits b 31 1 != 0 then .trap cReserved none 0 s
    else if regionHeld s (servedBy s e.core) (pairAddr e r.a.toNat) then .wait s
    else
      let (v, s) := restoreTeam e.core (pairAddr e r.a.toNat) (bit b 0) false s
      .done 1 (putS e r.d.toNat (word (v.1 + 256 * v.2)) s))

def execRestg (r : SysxArgs) (s : State) : Host.Outcome State Fault Refusal := agentRun (gSysx 2) (restgBody r) s

/-! ## SAVENOW (R407) -/

/-- DRAINLIM has elapsed, as ATIMER has told (R400): a launch that still drains is saved. -/
def saveNowEvent (core f r : Nat) (s : State) : State :=
  let s := armTimer core (takeEvent core 6 s)
  if recState s f r != 4 then s
  else writeKick f (recQueue s f r) (atomOrW f (rPREEMPT r) 1 s).2

def execSaveNow (core f rec : Nat) (s : State) : Host.Outcome State Fault Refusal :=
  event (withRecord core f rec 256 (saveNowEvent core f rec)) s

/-- Every resident team of a launch with SAVENOW set that is not provisional is saved. -/
def saveDraining (f : Nat) (s : State) : State :=
  (s.teams.filter (fun t => t.2.f == f && savable t.2 && !t.2.prov)).foldl (fun s t =>
    if recState s f t.2.record = 4 && bit (ag32 s f (rPREEMPT t.2.record)) 0 then
      (saveOne f (t.1 / 16) (t.1 % 16) 2 s).2
    else s) s

/-! ## The world switch (R418) -/

/-- The teams of a function on the octets it time-shares. -/
def sharedTeams (s : State) (f : Nat) : List (Nat × Team) :=
  s.teams.filter (fun t => t.2.f == f && t.2.status != .free && !isStack (t.1 / 16) && bit (s.fcsr64 f 0x102) (t.1 / 16 / 8))

/-- Step 2: each team is saved; where the area or the directory has no room it stands still and NOROOM is set. -/
def saveWorld (f : Nat) (s : State) : State :=
  let stuck : Nat × Team → Bool := fun t =>
    t.2.saving && !s.agenda.any (fun d => match d.instr with
      | .saveg _ => d.who == some (.ctx (.agent (t.1 / 16)) 0) && (d.req.any (fun q => q.args.getD 1 0 % 16 == t.1 % 16))
      | _ => false)
  (sharedTeams s f).foldl (fun s t =>
    if savable t.2 || stuck t then
      match saveOne f (t.1 / 16) (t.1 % 16) 1 s with
      | (true, s) => s
      | (false, s) =>
        let s := s.setTeam (t.1 / 16) (t.1 % 16) { s.team (t.1 / 16) (t.1 % 16) with saving := true }
        s.setFcsr f 0x061 (setBit (s.fcsr f 0x061) 30 true)
    else s) s

/-- A KICK of a function whose WSCTL.GO is set begins or carries on the switch. -/
def beginSwitch (f : Nat) (s : State) : State :=
  if !bit (s.fcsr f 0x061).toNat 31 then s
  else
    let s := saveWorld f (s.setFcsr f 0x061 (setBit (s.fcsr f 0x061) 30 false))
    let begun := s.agenda.any (fun d => match d.instr with
      | .worldSwitch _ => d.req.any (fun q => q.f == f)
      | _ => false)
    if begun then s else s.due ((sharedOctets s f).map (fun o => reqDue f (s.fcsr f 0x061) (.worldSwitch o)))

/-- WORLD_SWITCH of one octet (R418 steps 3 to 5): its cores are cleaned; with the last one the counters and the owner change and the
incoming function's teams are restored, and once that is done GO clears. -/
def worldSwitchEvent (octet : Nat) (s : State) : State :=
  let f := (s.request.map (·.f)).getD 0
  let inc := bits (s.fcsr f 0x061).toNat 4 0
  if !bit (s.fcsr f 0x061).toNat 31 then s
  else if fwArg s 0 = 1 then (s.setFcsr f 0x061 (word inc)).due [{ instr := .kick inc 0 }]
  else
    let s := (List.range 8).foldl (fun s k => scrubCore (8 * octet + k) s) s
    let fn := s.func f
    let done := if fn.switched.contains octet then fn.switched else fn.switched ++ [octet]
    if (sharedOctets s f).any (fun o => !done.contains o) then s.setFunc f { fn with switched := done }
    else
      let s := latchCycles f s
      let s := s.setFunc f { s.func f with switched := [], worldResident := false }
      let s := s.setFunc inc { s.func inc with worldResident := true }
      let s := retryRestores inc (countEvent inc 0x07 1 s)
      s.due [{ req := some { f := f, value := s.fcsr f 0x061, args := [1] }, instr := .worldSwitch octet }]

def execWorldSwitch (octet : Nat) (s : State) : Host.Outcome State Fault Refusal := event (worldSwitchEvent octet) s

/-- SWITCH_ABANDON (R418): the function keeps the octet; its teams that stood still go on, and the saved ones are restored. -/
def switchAbandonEvent (octet : Nat) (s : State) : State :=
  let f := (s.request.map (·.f)).getD 0
  let mine : Due → Bool := fun d => match d.instr with
    | .worldSwitch o => o == octet && d.req.any (fun q => q.f == f)
    | _ => false
  let s := { s with agenda := s.agenda.filter (fun d => !mine d) }
  let queued : Nat → Bool := fun key => s.agenda.any (fun d => match d.instr with
    | .saveg _ => d.who == some (.ctx (.agent (key / 16)) 0) && (d.req.any (fun q => q.args.getD 1 0 % 16 == key % 16))
    | _ => false)
  let s := { s with teams := s.teams.map (fun (t : Nat × Team) =>
      (t.1, if t.2.f == f && t.1 / 16 / 8 == octet && t.2.saving && !queued t.1 then { t.2 with saving := false } else t.2)) }
  let s := s.setFunc f { s.func f with switched := (s.func f).switched.filter (· != octet) }
  retryRestores f s

def execSwitchAbandon (octet : Nat) (s : State) : Host.Outcome State Fault Refusal := event (switchAbandonEvent octet) s

/-! ## Cores an amendment takes away (R438) -/

/-- Teams on compute cores that an amendment takes away are saved with STATE 1; where there is no room they wait. -/
def saveLeaving (f : Nat) (s : State) : State :=
  (s.teams.filter (fun t => t.2.f == f && savable t.2 && !isStack (t.1 / 16) && (s.func f).leaving.contains (t.1 / 16))).foldl
    (fun s t => (saveOne f (t.1 / 16) (t.1 % 16) 1 s).2) s

/-- Removed cores on which no team of the function remains pass (R438, R457): whole octets, and single stack cores. -/
def finishLeaving (f : Nat) (s : State) : State :=
  let busy : Nat → Bool := fun c => (teamsOn s c).any (fun t => t.2.1.f == f)
  let unit_ : Nat → List Nat := fun c => if isStack c then [c] else span (c / 8 * 8) 8
  let gone := (s.func f).leaving.filter (fun c => (unit_ c).all (fun x => !busy x))
  let clear : State → Nat → State := fun s c =>
    if isStack c then s.setFcsr f (0x105 + (c - 512) / 32) (setBit (s.fcsr f (0x105 + (c - 512) / 32)) ((c - 512) % 32) false)
    else s.setFcsr f (0x100 + c / 256) (setBit (s.fcsr f (0x100 + c / 256)) (c / 8 % 32) false)
  if gone.isEmpty then s
  else
    let t := gone.foldl clear s
    passCores s (t.setFunc f { t.func f with leaving := (t.func f).leaving.filter (fun c => !gone.contains c) })

/-- What a function's agents do about cores that an amendment takes away. -/
def leaveCores (f : Nat) (s : State) : State := if (s.func f).leaving.isEmpty then s else finishLeaving f (saveLeaving f s)

end Sys2Proof.Machine
end

