-- ==== Sys2Proof/Machine/Claim.lean ====
section
/-! DEFINITION. Machine/Claim.lean: what agents do when they wake: KICK (R46, R400), the choice of work (R62, R81), claiming a
ticket (R60, R63, R105), starting aborted teams again (R283), and RETIRE (R453). -/

namespace Sys2Proof.Machine

/-! ## Work (R62) -/

/-- What an agent with room can do next. -/
inductive Work where
  /-- Start an aborted team again. -/
  | restart (k : Restart)
  /-- Read a structure that the agent cannot reach, and stop (R265, R474). -/
  | unreachable (at_ len : Nat)
  /-- Restore a launch's saved teams before its tickets are claimed (R408). -/
  | images (r : Nat)
  /-- Claim a ticket of a launch on a row. -/
  | entry (row r : Nat)
  /-- Dispatch a ready batch of a node, which counts as a launch on a row. -/
  | batch (row node : Nat)
  deriving DecidableEq, Repr

/-- Whether a launch belongs to the half of the board that a core serves (R61). -/
def servesLaunch (s : State) (core f r : Nat) : Bool := recStack s f r == isStack core

/-- Room for a team of a launch on a core, as DISP reserves it. -/
def roomOn (s : State) (core f r : Nat) (priv : Option Nat) : Option (Kernel × Reserved) :=
  match kernelOn s core f r with
  | none => none
  | some k => (roomFor s core f r k priv).map (fun v => (k, v))

/-- The block index of a restart's private block. -/
def restartPriv (s : State) (f : Nat) (k : Restart) : Nat :=
  (k.priv + 2 ^ 56 - s.fcsr64 f 0x042 % 2 ^ 56) % 2 ^ 56 / 2 ^ 27

/-- Whether a walk's answer is anything but an absent page. -/
def presentPage : Except Nat (Nat × Nat) → Bool
  | .ok _ => true
  | .error c => c != cPageAbsent

/-- Whether a retry finds the page an aborted team met (R283). -/
def pageFound (s : State) (f va : Nat) : Bool :=
  presentPage (walk f va { s with domains := [] }).1

/-- An aborted team that can start again on a core. -/
def readyRestart (s : State) (core f : Nat) : Option Restart :=
  (s.func f).restarts.find? (fun k => pageFound s f k.va && servesLaunch s core f k.record &&
    (roomOn s core f k.record (some (restartPriv s f k))).isSome)

/-- Nodes with a batch that can be dispatched from a template on row q of a half (R81). -/
def readyNodes (s : State) (f : Nat) (stack : Bool) (q : Nat) : List Nat :=
  (List.range (nnode s f)).filter (fun k =>
    let b := readBasket s f k
    (readyBatch s f b).isSome && graphStatus s f b != 1 && !bit (recFlags s f b.template) 3 &&
      recStack s f b.template == stack && bits (recFlags s f b.template) 1 0 = q)

/-- Whether a row holds work. -/
def rowBusy (s : State) (f : Nat) (stack : Bool) (q : Nat) : Bool :=
  (rowEntries s f (rowAt s f stack q)).any (· != 0) || !(readyNodes s f stack q).isEmpty

/-- The row an agent chooses (R62): the highest that has waited 64 claims, else the highest with work. -/
def chosenRow (s : State) (f : Nat) (stack : Bool) : Option Nat :=
  let busy := [3, 2, 1, 0].filter (rowBusy s f stack)
  (busy.find? (fun q => 64 ≤ ag32 s f (rowAt s f stack q))).or busy.head?

/-- The first nonzero entry of a row, from entry CORE mod 64 on. -/
def chosenEntry (s : State) (core f row : Nat) : Option Nat :=
  let es := rowEntries s f row
  ((es.drop (core % 64)) ++ es.take (core % 64)).find? (· != 0)

/-- What of the board an agent reads, and cannot reach: its rows, or the record of the entry it chooses. -/
def beyondReach (s : State) (core f : Nat) : Option (Nat × Nat) :=
  if boardAt s f = 0 then none
  else if (agCause s f (boardAt s f) 0x1080).isSome then some (boardAt s f, 0x1080)
  else ((chosenRow s f (isStack core)).bind (fun q => chosenEntry s core f (rowAt s f (isStack core) q))).bind (fun r =>
    if (agCause s f r 256).isSome then some (r, 256) else none)

/-- What a core's agent can do for a function now. -/
def workFor (s : State) (core f : Nat) : Option Work :=
  if (s.core core).agentStopped || (s.core core).held.isSome || !queuesRun s f then none
  else match readyRestart s core f with
    | some k => some (.restart k)
    | none => match beyondReach s core f with
    | some x => some (.unreachable x.1 x.2)
    | none =>
      match chosenRow s f (isStack core) with
      | none => none
      | some q =>
        let row := rowAt s f (isStack core) q
        match (readyNodes s f (isStack core) q).head?, chosenEntry s core f row with
        | some k, _ =>
          let b := readBasket s f k
          if (templateCause s f b).isSome || (roomOn s core f b.template none).isSome then some (.batch row k) else none
        | none, none => none
        | none, some r =>
          let saved := (dirIn s f 2).filter (fun i => dirRec s f i = r)
          if !saved.isEmpty then
            (if saved.any (fun i => (restoreCore s f (dirImage s f i)).isSome) then some (.images r) else none)
          else if (roomOn s core f r none).isSome then some (.entry row r) else none

/-- The next agent of a function with something to do, in cyclic order from a core, takes its step. -/
def startClaims (f from_ : Nat) (s : State) : State :=
  let waiting := s.agenda.any (fun d => match d.instr with
    | .claim _ g _ => g == f
    | _ => false)
  if waiting then s
  else
    let cs := servingCores s f
    match ((cs.filter (from_ ≤ ·)) ++ cs.filter (· < from_)).find? (fun c => (workFor s c f).isSome) with
    | none => s
    | some c => s.due [fw c f (.claim c f 0)]

/-! ## Claiming -/

/-- The aging of rows after a claim from one of them (R62). -/
def ageRows (f row : Nat) (stack : Bool) (s : State) : State :=
  let s := put32 f row 0 s
  ((List.range 4).filter (fun q => rowAt s f stack q < row)).foldl (fun s q =>
    if rowBusy s f stack q then (atomAddW f (rowAt s f stack q) 1 s).2 else s) s

/-- A ticket of a launch that is not speculative (R60); one past the end takes the launch off the row (R63). -/
def claimPlain (core f row r : Nat) (k : Kernel) (v : Reserved) (s : State) : State :=
  let (t, s) := atomAddW f (rNEXT r) 1 s
  if recNteam s f r ≤ t || 0x80000000 ≤ t then dropFromRow f row r s
  else ageRows f row (isStack core) (dispatch f t k v none none s)

/-- A ticket of a speculative launch (R105). -/
def claimSpec (core f row r : Nat) (k : Kernel) (v : Reserved) (s : State) : State :=
  let past := recNteam s f r
  let (t, s) := atomAddW f (rNEXT r) 1 s
  let live := ag32 s f (rFLOOR r) ≤ t
  let s := if live then (atomAddW f (rLIVEP r) 1 s).2 else s
  if past ≤ t || 0x80000000 ≤ t then
    let s := dropFromRow f row r s
    if live then dropLive f r s else s
  else
    let s := ageRows f row (isStack core) (dispatch f t k v none none s)
    if recSettled s f r && (s.team v.lower v.slot).prov then settleTeam v.lower v.slot s else s

/-- A claim from a launch on a row (R60, R67). One that its stop closes has left the row. -/
def claimEntry (core f row r : Nat) (s : State) : State :=
  let s := stopLaunch core f r s
  if !(rowEntries s f row).contains r then s
  else match roomOn s core f r none with
    | none => s
    | some (k, v) => if recSpec s f r then claimSpec core f row r k v s else claimPlain core f row r k v s

/-- The batch, if one is ready, taken to the team slot found for it, if one was. -/
def takeBatch (core f row node : Nat) (b : Basket) (ready : Option (Nat × Nat)) (room : Option (Kernel × Reserved)) (s : State) : State :=
  match ready, room with
  | some (n, size), some (k, v) =>
    let s := put32 f (b.block n + 4) size (put32 f (bDISP b) ((n + 1) % 2 ^ 32) s)
    let s := dispatch f (n % 2 ^ 24 * 128 + size) k v (some node) none s
    ageRows f row (isStack core) s
  | _, _ => s

/-- A ready batch is dispatched (R81); a template that fails its check fails the node instead (R75). -/
def claimBatch (core f row node : Nat) (s : State) : State :=
  nodeStep core f node (fun s =>
    let b := readBasket s f node
    match templateCause s f b with
    | some c => nodeFailure core f node 0 c s
    | none => takeBatch core f row node b (readyBatch s f b) (roomOn s core f b.template none) s) s

/-- An aborted team starts again from its entry, with its index and its private block (R283); one whose launch has settled
meanwhile is confirmed or squashed at once (R92, R104). -/
def startAgain (core f : Nat) (x : Restart) (s : State) : State :=
  match roomOn s core f x.record (some (restartPriv s f x)) with
  | none => s
  | some (k, v) =>
    let s := s.setFunc f { s.func f with restarts := (s.func f).restarts.erase x }
    let s := resolveTeamRetry f x.record x.idx (dispatch f x.idx k v x.node (some x) s)
    if x.prov && recSettled s f x.record then settleTeam v.lower v.slot s else s

/-- One piece of work. -/
def doWork (core f : Nat) (w : Work) (s : State) : State :=
  match w with
  | .restart k => startAgain core f k s
  | .unreachable a n => withRecord core f a n id s
  | .images r => restoreLaunch f r s
  | .entry row r => claimEntry core f row r s
  | .batch row k => claimBatch core f row k s

/-- CLAIM (R60): the work the core's agent chooses, or, where a record is named, a claim from it; the next agent follows. -/
def claimEvent (core f rec : Nat) (s : State) : State :=
  let s := if rec = 0 then
      (match workFor s core f with
      | none => s
      | some w => doWork core f w s)
    else if (rowEntries s f (recRow s f rec)).contains rec && queuesRun s f then claimEntry core f (recRow s f rec) rec s else s
  startClaims f (core + 1) s

def execClaim (core f rec : Nat) (s : State) : Host.Outcome State Fault Refusal := event (claimEvent core f rec) s

/-- RESTART (R283): the aborted team with an index starts again on a core with room. -/
def restartEvent (core f ticket : Nat) (s : State) : State :=
  match (s.func f).restarts.find? (fun k => k.idx == ticket && pageFound s f k.va && servesLaunch s core f k.record) with
  | none => s
  | some k => startAgain core f k s

def execRestart (core f ticket : Nat) (s : State) : Host.Outcome State Fault Refusal := event (restartEvent core f ticket) s

/-! ## KICK (R46) -/

/-- Groups parked under WAITPAGE issue their trapping instruction again (R392). -/
def retryPages (f : Nat) (s : State) : State :=
  (s.teams.filter (fun t => t.2.f == f && t.2.status != .free)).foldl (fun s t => retryTeamPages (t.1 / 16) (t.1 % 16) s) s

/-- Engine operations that stand at an absent page try again (R399). -/
def retryOps (f : Nat) (s : State) : State :=
  s.cores.foldl (fun s c => c.2.ops.foldl (fun s o => match o.2 with
    | none => s
    | some x =>
      if x.f != f || x.stalledAt.isNone then s
      else
        let s := setOp c.1 o.1 (some { x with stalledAt := none }) s
        s.due [{ instr := match x.kind with
          | .copy => .copyLanding c.1 o.1
          | .pref => .prefCompletion c.1 o.1
          | .code => .landed x.lower (x.slot * 64 + x.lslot) }]) s) s

/-- The launches whose stop request a KICK lets the agents see (R67): those on the board and those with a resident team. -/
def kickedLaunches (s : State) (f : Nat) : List Nat :=
  (boardLaunches s f ++ (s.teams.filter (fun t => t.2.f == f && t.2.node.isNone)).map (fun t => t.2.record)).eraseDups

/-- What agents that wake read of the board and the shape list, where the function has them. -/
def wakeReach (s : State) (f : Nat) : List (Nat × Nat) :=
  (if boardAt s f = 0 then [] else [(boardAt s f, 0x1080)]) ++ (if specAt s f = 0 then [] else [(specAt s f, 0x210)])

/-- What a function's agents do with its launches, queues and Baskets when they wake. A node whose Basket names no template is not
looked at. -/
def wakeQueues (f : Nat) (s : State) : State :=
  let core := leadCore s f
  withRecords core f (wakeReach s f) (fun s =>
  let s := (shapeLaunches s f).foldl (fun s r => settleIfKnown core f r s) s
  let s := (kickedLaunches s f).foldl (fun s r => stopLaunch core f r s) s
  let s := saveDraining f (settleTeams f s)
  let s := (List.range 8).foldl (fun s q => lookAtQueue core f q s) s
  (List.range (nnode s f)).foldl (fun s k =>
    let b := readBasket s f k
    let bad := (agCause s f b.at_ 64).isSome || (basketReach b (ag32 s f (bDISP b))).any (fun x => (agCause s f x.1 x.2).isSome)
    if (b.template != 0 && bad) || (readyBatch s f b).isSome then s.due [fw core f (.batchReady core f k)] else s) s) s

/-- KICK (R46, R400): every agent of the function wakes and does what is pending. -/
def kickEvent (f : Nat) (s : State) : State :=
  if s.power != .service then s
  else
    let s := raiseAll f 2 s
    let s := resolveRetried f (fun _ => true) (retryOps f (retryPages f s))
    let s := retryRestores f (reapImages (leadCore s f) f (beginSwitch f (leaveCores f s)))
    let s := if queuesRun s f then wakeQueues f s else s
    startClaims f 0 (takeAll f 10 (takeAll f 2 s))

def execKick (f q : Nat) (s : State) : Host.Outcome State Fault Refusal := event (fun s => if q < 8 then kickEvent f s else s) s

/-! ## RETIRE (R453) -/

/-- The row of R453 that applies to an ended team; arguments as Machine/TeamEnd.lean gives them. -/
def retireTeam (core f slot : Nat) (s : State) : State :=
  let r := fwArg s 0
  let idx := fwArg s 1
  let kind := fwArg s 2
  let node := fwArg s 5
  if kind = 3 || kind = 4 then s
  else if node != 0 then nodeRetire core f (node - 1) idx s
  else if fwArg s 3 = 1 then (if recSettled s f r then settleTeam core slot s else s)
  else if fwArg s 3 = 2 then retireImage core slot s
  else if kind = 2 then dropLive f r (retractChunk core f r idx s)
  else if fwArg s 4 = 1 then countRestored f r s
  else countDone f r s

/-- RETIRE (R453): the agent counts the ended team, and looks for work: saved teams, batches, restarts and tickets. -/
def retireEvent (core slot : Nat) (s : State) : State :=
  let f := (s.request.map (·.f)).getD 0
  let s := takeEvent core 1 (retireTeam core f slot s)
  let s := retryRestores f (beginSwitch f (leaveCores f s))
  startClaims f core s

def execRetire (core slot : Nat) (s : State) : Host.Outcome State Fault Refusal := event (retireEvent core slot) s

end Sys2Proof.Machine
end

