-- ==== Sys2Proof/Machine/Convert.lean ====
section
/-! DEFINITION. Machine/Convert.lean: the conversions CVT (R240, R241) and CVTH (R242). -/

namespace Sys2Proof.Machine

/-- Elements of each lane: the greater count per unit of the two types (R240). -/
def cvtCount (ts td : Nat) : Nat := max (perUnit ts) (perUnit td)

/-- The registers of an operand of `n` elements of a type from register r, unit by unit. -/
def cvtUnits (t n r : Nat) : List Nat := (List.range (n / perUnit t)).map (fun i => r + i * (unitWidth t / 32))
def cvtRegs (t n r : Nat) : List Nat := span r (n / perUnit t * (unitWidth t / 32))

/-- The value of a source element. -/
def cvtSource (k : Rounding) (t x : Nat) : Except Nat Val := if zType t then zWordVal t x else .ok (elemVal t k.ftz x)

/-- One converted element. -/
def cvtElem (k : Rounding) (ts td x : Nat) : Res Nat :=
  match cvtSource k ts x with
  | .ok v => convert k td v
  | .error c => .error c

/-- The converted elements of a lane, in element order. -/
def cvtLane (e : Env) (ts td n a l : Nat) : Res (List Nat) :=
  collect (((cvtUnits ts n a).flatMap (fun r => elemsOf ts (e.group.readUnit (wideType ts) r l))).map
    (cvtElem (roundingOf e.ctx.mr) ts td))

/-- Elements written into the destination's units. -/
def cvtPut (td n d l : Nat) (xs : List Nat) : List (Nat × Nat × Word) :=
  (cvtUnits td n d).zipIdx.flatMap (fun p =>
    unitWrites (wideType td) p.1 l (ofElems td ((xs.drop (p.2 * perUnit td)).take (perUnit td))))

/-- CVT (R240). -/
def cvtBody (t : BitVec 4) (r : UArgs) : Env → State → Eff := vec fun e s =>
  let ts := mrType e.ctx.mr
  let td := t.toNat
  let n := cvtCount ts td
  let src := cvtRegs ts n r.a.toNat
  let dst := cvtRegs td n r.d.toNat
  if zType td || (zType ts && intType td) then .trap cBadMode none 0 s
  else if r.a.toNat % src.length != 0 || r.d.toNat % dst.length != 0 then .trap cReserved none 0 s
  else if (src ++ dst).any (fun x => e.team.regs ≤ x) then .trap cRegRange none 0 s
  else needs e (src.map (fun x => srcV x r.qa) ++ dst.map dstV) s
    (deliverLanes e (cvtPut td n r.d.toNat) (e.active.map (fun l => (l, cvtLane e ts td n r.a.toNat l))) s)

def execCvt (t : BitVec 4) (r : UArgs) (s : State) : Host.Outcome State Fault Refusal :=
  run { gVec 0x1B t.toNat [r.d.toNat, r.a.toNat] (if wideType t.toNat then 1 else 2) with
        quadCost := if wideType t.toNat then 2 else 1 } (cvtBody t r) s

/-! ## CVTH -/

/-- The sixteen values of a block: an inactive or absent lane supplies +0 (R242). -/
def blockVals (e : Env) (a block : Nat) : List Val :=
  (List.range 16).map (fun i =>
    if e.active.contains (16 * block + i) then
      floatVal tF32 (roundingOf e.ctx.mr).ftz (e.group.readV a (16 * block + i)).toNat
    else .fin false 0 0)

/-- The element word of position i of a quantised group (R241). -/
def zElemWord (bs : Nat) (g : ZGroup) (i : Nat) : Nat :=
  bs * 0x1000000 + g.ge * 0x10000 + (if bit g.mu (i / 2) then 0x8000 else 0) + g.els.getD i 0

/-- The writes of a quantised block: its active lanes only. -/
def blockWrites (e : Env) (d bs block : Nat) (g : ZGroup) : List (Nat × Nat × Word) :=
  ((List.range 16).filter (fun i => e.active.contains (16 * block + i))).map (fun i =>
    (d, 16 * block + i, word (zElemWord bs g i)))

/-- CVTH (R242): pending bits come first (R174); once sB is full, what its value makes it trap with comes before an empty vA
(R227). -/
def cvthBody (h : Bool) (z : BitVec 4) (r : SArgs) : Env → State → Eff := vec fun e s =>
  let b := e.ctx.readS r.b.toNat
  let srcs := [srcV r.a.toNat r.qa, srcS r.b.toNat r.qb, dstV r.d.toNat]
  if mrType e.ctx.mr != tF32 then .trap cBadMode none 0 s
  else if srcs.any (fun o => e.ctx.pending o.sc o.reg) || e.emptyReg (srcS r.b.toNat) then needs e srcs s (.wait s)
  else if bits b.toNat 31 8 != 0 then .trap cReserved none 0 s
  else if bits b.toNat 7 0 = 0xFF then .trap cBadMode none 0 s
  else needs e srcs s (
      let blocks := (List.range 4).filter (fun k => e.active.any (fun l => l / 16 == k))
      let rs := blocks.map (fun k => (((e.active.find? (fun l => l / 16 == k)).getD 0),
        quantiseH (roundingOf e.ctx.mr) z.toNat (bits b.toNat 7 0) h (blockVals e r.a.toNat k)))
      deliverLanes e (fun l g => blockWrites e r.d.toNat (bits b.toNat 7 0) (l / 16) g) rs s)

def execCvth (h : Bool) (z : BitVec 4) (r : SArgs) (s : State) : Host.Outcome State Fault Refusal :=
  run (gVec 0x1C z.toNat [r.d.toNat, r.a.toNat]) (cvthBody h z r) s

end Sys2Proof.Machine
end

