-- ==== Sys2Proof/Machine/Scalar.lean ====
section
/-! DEFINITION. Machine/Scalar.lean: the scalar instructions SALU (R228), SADDI and SLI (R229), SCMP (R230) and the two forms of
MOVL (R246). -/

namespace Sys2Proof.Machine

/-! ## Word operations shared with the vector family -/

/-- Leading zeros of the low `n` bits. -/
def clz (n x : Nat) : Nat := if x % 2 ^ n = 0 then n else n - 1 - (x % 2 ^ n).log2

/-- The low `n` bits reversed. -/
def brev (n x : Nat) : Nat := ((List.range n).map (fun i => if bit x i then 2 ^ (n - 1 - i) else 0)).sum

/-- Shifts of an n-bit element by b (R228, R231). -/
def shl (n a b : Nat) : Nat := if b < n then a * 2 ^ b % 2 ^ n else 0
def shr (n a b : Nat) : Nat := if b < n then a / 2 ^ b else 0
def sar (n a b : Nat) : Nat := wrap n (signed n a / (2 ^ min b (n - 1) : Nat))

/-! ## SALU -/

/-- The gate of a uniform scalar instruction: allowed in the agent slot and in team-scalar mode (R116, R475). -/
def gScalar (major minor : Nat) : Gate := { major := major, minor := minor, agent := .yes, scalarOk := true }

/-- A SALU minor with two sources. -/
def salu2 (f : Nat → Nat → Nat) (r : SArgs) : Env → State → Eff :=
  scalarOp [srcS r.a.toNat r.qa, srcS r.b.toNat r.qb] [r.d.toNat]
    (fun c => [word (f (c.readS r.a.toNat).toNat (c.readS r.b.toNat).toNat)])

/-- A SALU minor with one source. -/
def salu1 (f : Nat → Nat) (r : UArgs) : Env → State → Eff :=
  scalarOp [srcS r.a.toNat r.qa] [r.d.toNat] (fun c => [word (f (c.readS r.a.toNat).toNat)])

/-- A SALU minor on pairs. -/
def salu64 (f : Nat → Nat → Nat) (r : SArgs) : Env → State → Eff :=
  let d := r.d.toNat
  scalarOp ([r.a.toNat, r.a.toNat + 1].map (fun x => srcS x r.qa) ++ [r.b.toNat, r.b.toNat + 1].map (fun x => srcS x r.qb))
    [d, d + 1]
    (fun c => let x := f (c.readUnit true r.a.toNat) (c.readUnit true r.b.toNat); [loWord x, hiWord x])

/-- SaluAdd: SALU minor 0 (R228). -/
def execSaluAdd (r : SArgs) (s : State) : Host.Outcome State Fault Refusal :=
  run (gScalar 0x10 0) (salu2 (fun a b => a + b) r) s

/-- SaluSub: SALU minor 1 (R228). -/
def execSaluSub (r : SArgs) (s : State) : Host.Outcome State Fault Refusal :=
  run (gScalar 0x10 1) (salu2 (fun a b => a + 2 ^ 32 - b) r) s

/-- SaluMul: SALU minor 2 (R228). -/
def execSaluMul (r : SArgs) (s : State) : Host.Outcome State Fault Refusal :=
  run (gScalar 0x10 2) (salu2 (fun a b => a * b) r) s

/-- SaluMulhi: SALU minor 3 (R228). -/
def execSaluMulhi (r : SArgs) (s : State) : Host.Outcome State Fault Refusal :=
  run (gScalar 0x10 3) (salu2 (fun a b => wrap 32 (signed 32 a * signed 32 b / (2 ^ 32 : Nat))) r) s

/-- Mulhu: SALU minor 4 (R228). -/
def execMulhu (r : SArgs) (s : State) : Host.Outcome State Fault Refusal :=
  run (gScalar 0x10 4) (salu2 (fun a b => a * b / 2 ^ 32) r) s

/-- SaluAnd: SALU minor 5 (R228). -/
def execSaluAnd (r : SArgs) (s : State) : Host.Outcome State Fault Refusal :=
  run (gScalar 0x10 5) (salu2 (fun a b => a &&& b) r) s

/-- SaluOr: SALU minor 6 (R228). -/
def execSaluOr (r : SArgs) (s : State) : Host.Outcome State Fault Refusal :=
  run (gScalar 0x10 6) (salu2 (fun a b => a ||| b) r) s

/-- SaluXor: SALU minor 7 (R228). -/
def execSaluXor (r : SArgs) (s : State) : Host.Outcome State Fault Refusal :=
  run (gScalar 0x10 7) (salu2 (fun a b => a ^^^ b) r) s

/-- SaluAndn: SALU minor 8 (R228). -/
def execSaluAndn (r : SArgs) (s : State) : Host.Outcome State Fault Refusal :=
  run (gScalar 0x10 8) (salu2 (fun a b => a &&& (2 ^ 32 - 1 - b)) r) s

/-- SaluShl: SALU minor 9 (R228). -/
def execSaluShl (r : SArgs) (s : State) : Host.Outcome State Fault Refusal :=
  run (gScalar 0x10 9) (salu2 (fun a b => shl 32 a b) r) s

/-- SaluShr: SALU minor 10 (R228). -/
def execSaluShr (r : SArgs) (s : State) : Host.Outcome State Fault Refusal :=
  run (gScalar 0x10 10) (salu2 (fun a b => shr 32 a b) r) s

/-- SaluSar: SALU minor 11 (R228). -/
def execSaluSar (r : SArgs) (s : State) : Host.Outcome State Fault Refusal :=
  run (gScalar 0x10 11) (salu2 (fun a b => sar 32 a b) r) s

/-- SaluMin: SALU minor 12 (R228). -/
def execSaluMin (r : SArgs) (s : State) : Host.Outcome State Fault Refusal :=
  run (gScalar 0x10 12) (salu2 (fun a b => if signed 32 a ≤ signed 32 b then a else b) r) s

/-- SaluMax: SALU minor 13 (R228). -/
def execSaluMax (r : SArgs) (s : State) : Host.Outcome State Fault Refusal :=
  run (gScalar 0x10 13) (salu2 (fun a b => if signed 32 a ≤ signed 32 b then b else a) r) s

/-- Minu: SALU minor 14 (R228). -/
def execMinu (r : SArgs) (s : State) : Host.Outcome State Fault Refusal :=
  run (gScalar 0x10 14) (salu2 (fun a b => min a b) r) s

/-- Maxu: SALU minor 15 (R228). -/
def execMaxu (r : SArgs) (s : State) : Host.Outcome State Fault Refusal :=
  run (gScalar 0x10 15) (salu2 (fun a b => max a b) r) s

/-- SaluClz: SALU minor 16 (R228). -/
def execSaluClz (r : UArgs) (s : State) : Host.Outcome State Fault Refusal :=
  run (gScalar 0x10 16) (salu1 (fun a => clz 32 a) r) s

/-- SaluPopc: SALU minor 17 (R228). -/
def execSaluPopc (r : UArgs) (s : State) : Host.Outcome State Fault Refusal :=
  run (gScalar 0x10 17) (salu1 (fun a => popcount 32 a) r) s

/-- SaluBrev: SALU minor 18 (R228). -/
def execSaluBrev (r : UArgs) (s : State) : Host.Outcome State Fault Refusal :=
  run (gScalar 0x10 18) (salu1 (fun a => brev 32 a) r) s

/-- SaluMov: SALU minor 19 (R228). -/
def execSaluMov (r : UArgs) (s : State) : Host.Outcome State Fault Refusal :=
  run (gScalar 0x10 19) (salu1 (fun a => a) r) s

/-- Add64: SALU minor 20 (R228). -/
def execAdd64 (r : SArgs) (s : State) : Host.Outcome State Fault Refusal :=
  run (gScalar 0x10 20) (salu64 (fun a b => a + b) r) s

/-- Sub64: SALU minor 21 (R228). -/
def execSub64 (r : SArgs) (s : State) : Host.Outcome State Fault Refusal :=
  run (gScalar 0x10 21) (salu64 (fun a b => a + 2 ^ 64 - b) r) s

/-! ## Immediates, compares and literals -/

/-- SADDI (R229). -/
def execSaddi (r : IArgs) (s : State) : Host.Outcome State Fault Refusal :=
  run (gScalar 0x11 0) (scalarOp [srcS r.a.toNat] [r.d.toNat]
    (fun c => [c.readS r.a.toNat + BitVec.ofInt 32 (signed 14 r.imm.toNat)])) s

/-- SLI (R229). -/
def execSli (d : BitVec 6) (i : BitVec 14) (s : State) : Host.Outcome State Fault Refusal :=
  run (gScalar 0x12 0) (scalarOp [] [d.toNat] (fun _ => [BitVec.ofInt 32 (signed 14 i.toNat)])) s

/-- A condition on patterns (R230): EQ, NE, then LT, LE, GT, GE by `lt`, then their unsigned forms. -/
def condition (lt : Nat → Nat → Bool) (c a b : Nat) : Bool :=
  match c with
  | 0 => a == b
  | 1 => a != b
  | 2 => lt a b
  | 3 => !lt b a
  | 4 => lt b a
  | 5 => !lt a b
  | 6 => a < b
  | 7 => a ≤ b
  | 8 => b < a
  | _ => b ≤ a

/-- SCMP (R230): the result goes to every lane of the gang, or to the context's single predicate. -/
def scmpBody (r : ScmpArgs) (e : Env) (s : State) : Eff :=
  needs e [srcS r.a.toNat r.qa, srcS r.b.toNat r.qb] s (
    let v := condition (fun x y => signed 32 x < signed 32 y) r.c.toNat (e.ctx.readS r.a.toNat).toNat
      (e.ctx.readS r.b.toNat).toNat
    .done 1 (if e.isGroup then putPs e (e.gangLanes.map (fun l => (r.d.toNat, l, v))) s
      else putCtx e (fun c => c.writeP r.d.toNat v) s))

def execScmp (r : ScmpArgs) (s : State) : Host.Outcome State Fault Refusal := run (gScalar 0x13 r.c.toNat) (scmpBody r) s

/-- A literal word beyond the end of the slot (R134). -/
def literalCrosses (e : Env) : Bool := pcWord e.gang.pc = 1023 && !e.isAgent

/-- MOVL to a vector register (R246): every active lane takes the literal. -/
def movlBody (d : BitVec 6) (lit : Word) (e : Env) (s : State) : Eff :=
  if literalCrosses e then .trap cSegCross none 0 s
  else if e.active.isEmpty then .done 2 s
  else needs e [dstV d.toNat] s (.done 2 (putVs e (e.active.map (fun l => (d.toNat, l, lit))) s))

def execMovl (d : BitVec 6) (lit : Word) (s : State) : Host.Outcome State Fault Refusal :=
  run (gVec 0x0A 0 [d.toNat]) (movlBody d lit) s

/-- MOVL to a scalar register (R246). -/
def movlScalarBody (d : BitVec 6) (lit : Word) (e : Env) (s : State) : Eff :=
  if literalCrosses e then .trap cSegCross none 0 s
  else needs e [dstS d.toNat] s (.done 2 (putS e d.toNat lit s))

def execMovlScalar (d : BitVec 6) (lit : Word) (s : State) : Host.Outcome State Fault Refusal :=
  run { gScalar 0x0A 0 with legacy := true } (movlScalarBody d lit) s

end Sys2Proof.Machine
end

