-- ==== Sys2Proof/Machine/Vector.lean ====
section
/-! DEFINITION. Machine/Vector.lean: the vector integer instructions VALU (R231), VADDI (R232), VIMAD (R233), DIV and REM of a
W16 team (R29, R30), and the predicates: VCMP (R234) and PLOG (R235). -/

namespace Sys2Proof.Machine

/-! ## Accepted types (R225) -/

def okInt (t : Nat) : Bool := intType t
def okAny (t : Nat) : Bool := t ≤ 14
def okWord (t : Nat) : Bool := t ≤ 3
def okDiv (t : Nat) : Bool := t ≤ 1

/-! ## Forms -/

/-- An element-wise integer minor: the result is taken modulo 2^w, no flag is set. -/
def elemInt (f : Nat → List Nat → Nat) (_ : Rounding) (t : Nat) (xs : List Nat) : Res Nat :=
  mapElems t (fun es => .ok (f t es, 0)) xs

/-- A minor on whole units. -/
def unitInt (f : Nat → List Nat → Nat) (_ : Rounding) (t : Nat) (xs : List Nat) : Res Nat := .ok (f t xs, 0)

def el (xs : List Nat) (i : Nat) : Nat := xs.getD i 0

/-- An element read by its type's signedness. -/
def ival (t x : Nat) : Int := if signedType t then signed (elemWidth t) x else (x : Int)

/-- A VALU minor on A and B. -/
def valu2 (accept : Nat → Bool) (f : Nat → Nat → Nat → Nat) (r : RArgs) : Env → State → Eff :=
  vecTyped accept r.d.toNat (rSrcs r) (elemInt (fun t xs => f t (el xs 0) (el xs 1)))

/-- A bitwise VALU minor. -/
def valuBits (f : Nat → Nat → Nat → Nat) (r : RArgs) : Env → State → Eff :=
  vecTyped okAny r.d.toNat (rSrcs r) (unitInt (fun t xs => f (unitWidth t) (el xs 0) (el xs 1)))

/-- A unary VALU minor. -/
def valu1 (f : Nat → Nat → Nat) (r : UArgs) : Env → State → Eff :=
  vecTyped okInt r.d.toNat [.v r.a.toNat r.qa] (elemInt (fun t xs => f t (el xs 0)))

/-- A minor that also reads the old vD, which waits on empty (R231). -/
def valu3 (accept : Nat → Bool) (f : Nat → Nat → Nat → Nat → Nat) (r : RArgs) : Env → State → Eff :=
  vecTyped accept r.d.toNat (rSrcs r ++ [.v r.d.toNat false])
    (unitInt (fun t xs => f (unitWidth t) (el xs 0) (el xs 1) (el xs 2)))

/-- Rotation left within n bits. -/
def rotl (n a b : Nat) : Nat := (a * 2 ^ (b % n) + a / 2 ^ (n - b % n)) % 2 ^ n

/-- The width of a field cut to its element (R231). -/
def fieldWidth (n b : Nat) : Nat := if bits b 7 0 < n then min (bits b 15 8) (n - bits b 7 0) else 0

/-- BFE (R231). -/
def bfeElem (t a b : Nat) : Nat :=
  let n := elemWidth t
  let k := fieldWidth n b
  let x := a / 2 ^ bits b 7 0 % 2 ^ k
  if k = 0 then 0 else if signedType t then wrap n (signed k x) else x

/-- BFI (R231). -/
def bfiElem (n a b d : Nat) : Nat :=
  let k := fieldWidth n b
  let m := (2 ^ k - 1) * 2 ^ bits b 7 0
  if k = 0 then d else (d &&& (2 ^ n - 1 - m)) + a % 2 ^ k * 2 ^ bits b 7 0

/-- DIV and REM (R30). -/
def divElem (t a b : Nat) : Nat := if b = 0 then 0xFFFFFFFF else wrap 32 ((ival t a).tdiv (ival t b))
def remElem (t a b : Nat) : Nat := if b = 0 then a else wrap 32 ((ival t a).tmod (ival t b))

/-! ## VALU -/

/-- ValuAdd: VALU minor 0 (R231). -/
def execValuAdd (r : RArgs) (s : State) : Host.Outcome State Fault Refusal := run (gRVec 0x14 0 r) (valu2 okInt (fun _ a b => a + b) r) s

/-- ValuSub: VALU minor 1 (R231). -/
def execValuSub (r : RArgs) (s : State) : Host.Outcome State Fault Refusal := run (gRVec 0x14 1 r) (valu2 okInt (fun _ a b => a + 2 ^ 64 - b) r) s

/-- ValuMul: VALU minor 2 (R231). -/
def execValuMul (r : RArgs) (s : State) : Host.Outcome State Fault Refusal := run (gRVec 0x14 2 r) (valu2 okInt (fun _ a b => a * b) r) s

/-- ValuMulhi: VALU minor 3 (R231). -/
def execValuMulhi (r : RArgs) (s : State) : Host.Outcome State Fault Refusal := run (gRVec 0x14 3 r) (valu2 okInt (fun t a b => wrap (elemWidth t) (ival t a * ival t b / (2 ^ elemWidth t : Nat))) r) s

/-- ValuMin: VALU minor 4 (R231). -/
def execValuMin (r : RArgs) (s : State) : Host.Outcome State Fault Refusal := run (gRVec 0x14 4 r) (valu2 okInt (fun t a b => if ival t a ≤ ival t b then a else b) r) s

/-- ValuMax: VALU minor 5 (R231). -/
def execValuMax (r : RArgs) (s : State) : Host.Outcome State Fault Refusal := run (gRVec 0x14 5 r) (valu2 okInt (fun t a b => if ival t a ≤ ival t b then b else a) r) s

/-- ValuShl: VALU minor 10 (R231). -/
def execValuShl (r : RArgs) (s : State) : Host.Outcome State Fault Refusal := run (gRVec 0x14 10 r) (valu2 okInt (fun t a b => shl (elemWidth t) a b) r) s

/-- ValuShr: VALU minor 11 (R231). -/
def execValuShr (r : RArgs) (s : State) : Host.Outcome State Fault Refusal := run (gRVec 0x14 11 r) (valu2 okInt (fun t a b => shr (elemWidth t) a b) r) s

/-- ValuSar: VALU minor 12 (R231). -/
def execValuSar (r : RArgs) (s : State) : Host.Outcome State Fault Refusal := run (gRVec 0x14 12 r) (valu2 okInt (fun t a b => if signedType t then sar (elemWidth t) a b else shr (elemWidth t) a b) r) s

/-- Rotl: VALU minor 13 (R231). -/
def execRotl (r : RArgs) (s : State) : Host.Outcome State Fault Refusal := run (gRVec 0x14 13 r) (valu2 okInt (fun t a b => Machine.rotl (elemWidth t) a b) r) s

/-- Addsat: VALU minor 23 (R231). -/
def execAddsat (r : RArgs) (s : State) : Host.Outcome State Fault Refusal := run (gRVec 0x14 23 r) (valu2 okInt (fun t a b => wrap (elemWidth t) (saturate t (ival t a + ival t b))) r) s

/-- Subsat: VALU minor 24 (R231). -/
def execSubsat (r : RArgs) (s : State) : Host.Outcome State Fault Refusal := run (gRVec 0x14 24 r) (valu2 okInt (fun t a b => wrap (elemWidth t) (saturate t (ival t a - ival t b))) r) s

/-- ValuAnd: VALU minor 6 (R231). -/
def execValuAnd (r : RArgs) (s : State) : Host.Outcome State Fault Refusal := run (gRVec 0x14 6 r) (valuBits (fun _ a b => a &&& b) r) s

/-- ValuOr: VALU minor 7 (R231). -/
def execValuOr (r : RArgs) (s : State) : Host.Outcome State Fault Refusal := run (gRVec 0x14 7 r) (valuBits (fun _ a b => a ||| b) r) s

/-- ValuXor: VALU minor 8 (R231). -/
def execValuXor (r : RArgs) (s : State) : Host.Outcome State Fault Refusal := run (gRVec 0x14 8 r) (valuBits (fun _ a b => a ^^^ b) r) s

/-- ValuAndn: VALU minor 9 (R231). -/
def execValuAndn (r : RArgs) (s : State) : Host.Outcome State Fault Refusal := run (gRVec 0x14 9 r) (valuBits (fun n a b => a &&& (2 ^ n - 1 - b)) r) s

/-- ValuClz: VALU minor 14 (R231). -/
def execValuClz (r : UArgs) (s : State) : Host.Outcome State Fault Refusal := run (gUVec 0x14 14 r) (valu1 (fun t a => clz (elemWidth t) a) r) s

/-- ValuPopc: VALU minor 15 (R231). -/
def execValuPopc (r : UArgs) (s : State) : Host.Outcome State Fault Refusal := run (gUVec 0x14 15 r) (valu1 (fun t a => popcount (elemWidth t) a) r) s

/-- ValuBrev: VALU minor 16 (R231). -/
def execValuBrev (r : UArgs) (s : State) : Host.Outcome State Fault Refusal := run (gUVec 0x14 16 r) (valu1 (fun t a => brev (elemWidth t) a) r) s

/-- Abs: VALU minor 17 (R231). -/
def execAbs (r : UArgs) (s : State) : Host.Outcome State Fault Refusal := run (gUVec 0x14 17 r) (valu1 (fun t a => wrap (elemWidth t) (ival t a).natAbs) r) s

/-- Neg: VALU minor 18 (R231). -/
def execNeg (r : UArgs) (s : State) : Host.Outcome State Fault Refusal := run (gUVec 0x14 18 r) (valu1 (fun t a => 2 ^ elemWidth t - a) r) s

/-- ValuMov: VALU minor 19 (R231). -/
def execValuMov (r : UArgs) (s : State) : Host.Outcome State Fault Refusal := run (gUVec 0x14 19 r) (vecTyped okAny r.d.toNat [.v r.a.toNat r.qa] (unitInt (fun _ xs => el xs 0))) s

/-- Sel: VALU minor 20 (R231). -/
def execSel (r : RArgs) (s : State) : Host.Outcome State Fault Refusal := run (gRVec 0x14 20 r) (valu3 okAny (fun n a b d => (a &&& d) ||| (b &&& (2 ^ n - 1 - d))) r) s

/-- Bfe: VALU minor 21 (R231). -/
def execBfe (r : RArgs) (s : State) : Host.Outcome State Fault Refusal := run (gRVec 0x14 21 r) (valu2 okWord bfeElem r) s

/-- Bfi: VALU minor 22 (R231). -/
def execBfi (r : RArgs) (s : State) : Host.Outcome State Fault Refusal := run (gRVec 0x14 22 r) (valu3 okWord bfiElem r) s

/-- DIV: VALU minor 25 of a W16 team (R29, R30). -/
def execDiv (r : RArgs) (s : State) : Host.Outcome State Fault Refusal :=
  run { gRVec 0x14 25 r with quadCost := 10 } (valu2 okDiv divElem r) s

/-- REM: VALU minor 26 of a W16 team (R29, R30). -/
def execRem (r : RArgs) (s : State) : Host.Outcome State Fault Refusal :=
  run { gRVec 0x14 26 r with quadCost := 11 } (valu2 okDiv remElem r) s

/-! ## VADDI and VIMAD -/

/-- VADDI (R232). -/
def execVaddi (r : IArgs) (s : State) : Host.Outcome State Fault Refusal :=
  run (gVec 0x15 0 [r.d.toNat, r.a.toNat])
    (vecTyped okInt r.d.toNat [.v r.a.toNat false] (elemInt (fun t xs =>
      wrap (elemWidth t) ((el xs 0 : Nat) + signed 14 r.imm.toNat)))) s

def qSrcs (r : QArgs) : List VSrc := [.v r.a.toNat false, .v r.b.toNat false, .v r.c.toNat false]

/-- The gate of VIMAD: 2 cycles a quad (R168). -/
def gMad (minor : Nat) (named : List Nat) : Gate := { gVec 0x1A minor named 1 with quadCost := 2 }

def qNamed (r : QArgs) : List Nat := [r.d.toNat, r.a.toNat, r.b.toNat, r.c.toNat]

/-- MAD (R233). -/
def execMad (r : QArgs) (s : State) : Host.Outcome State Fault Refusal :=
  run (gMad 0 (qNamed r)) (vecTyped okInt r.d.toNat (qSrcs r) (elemInt (fun _ xs => el xs 0 * el xs 1 + el xs 2))) s

/-- MADHI (R233). -/
def execMadhi (r : QArgs) (s : State) : Host.Outcome State Fault Refusal :=
  run (gMad 1 (qNamed r)) (vecTyped okWord r.d.toNat (qSrcs r) (elemInt (fun t xs =>
    wrap (elemWidth t) (ival t (el xs 0) * ival t (el xs 1) / (2 ^ elemWidth t : Nat) + (el xs 2 : Nat))))) s

/-- MADW (R233): D and C name pairs, whatever MR.TYPE holds. -/
def madwBody (r : QArgs) : Env → State → Eff := vec fun e s =>
  let t := mrType e.ctx.mr
  let d := r.d.toNat
  let c := r.c.toNat
  if !okDiv t then .trap cBadMode none 0 s
  else needs e [srcV r.a.toNat, srcV r.b.toNat, srcV c, srcV (c + 1), dstV d, dstV (d + 1)] s
    (.done 1 (putVs e (e.active.flatMap (fun l =>
      unitWrites true d l (wrap 64 (ival t (e.group.readV r.a.toNat l).toNat * ival t (e.group.readV r.b.toNat l).toNat +
        (e.group.readUnit true c l : Nat))))) s))

def execMadw (r : QArgs) (s : State) : Host.Outcome State Fault Refusal :=
  run (gMad 2 (qNamed r ++ [r.d.toNat + 1, r.c.toNat + 1])) (madwBody r) s

/-! ## VCMP -/

/-- The pairings of condition and TYPE that VCMP accepts (R225). -/
def okCmp (c t : Nat) : Bool :=
  if c ≤ 5 then t ≤ 5 else if c ≤ 9 then t ≤ 3 else t == 4 || t == 5

/-- A float condition, with NV (R234). -/
def floatCondition (c : Nat) (a b : Val) : Bool × Nat :=
  let un := a.isNan || b.isNan
  let v := match c with
    | 0 => a.eq b
    | 1 => !a.eq b
    | 2 => !un && a.lt b
    | 3 => !un && !b.lt a
    | 4 => !un && b.lt a
    | 5 => !un && !a.lt b
    | 10 => !un
    | _ => un
  let nv := if 2 ≤ c && c ≤ 5 then un else a.isSig || b.isSig
  (v, if nv then fNV else 0)

/-- The condition on two elements under a TYPE. -/
def vcmpElem (k : Rounding) (c t a b : Nat) : Bool × Nat :=
  if floatType t then floatCondition c (floatVal t k.ftz a) (floatVal t k.ftz b)
  else (condition (fun x y => ival t x < ival t y) c a b, 0)

/-- VCMP (R234). -/
def vcmpBody (r : VcmpArgs) : Env → State → Eff := vec fun e s =>
  let t := mrType e.ctx.mr
  let w := wideType t
  let srcs : List VSrc := [.v r.a.toNat r.qa, bSrc r.x r.b r.qb]
  if !okCmp r.c.toNat t then .trap cBadMode none 0 s
  else if w && srcs.any (fun x => x.reg % 2 != 0) then .trap cReserved none 0 s
  else if (srcs.flatMap (VSrc.vregs w)).any (fun r => e.team.regs ≤ r) then .trap cRegRange none 0 s
  else needs e (srcs.flatMap (VSrc.opnds w)) s (
    let k := roundingOf e.ctx.mr
    let rs := e.active.map (fun l => (l, vcmpElem k r.c.toNat t (e.group.readUnit w r.a.toNat l)
      ((bSrc r.x r.b r.qb).read e w l)))
    .done 1 (orExc e (rs.foldl (fun f x => f ||| x.2.2) 0) (putPs e (rs.map (fun x => (r.d.toNat, x.1, x.2.1))) s)))

def execVcmp (r : VcmpArgs) (s : State) : Host.Outcome State Fault Refusal :=
  run { gVec 0x16 r.c.toNat ([r.a.toNat] ++ (if r.x then [] else [r.b.toNat])) with legacy := r.x } (vcmpBody r) s

/-! ## PLOG -/

/-- A predicate operation of each active lane (R235). -/
def plog (d : BitVec 3) (f : Group → Nat → Bool) : Env → State → Eff := vec fun e s =>
  .done 1 (putPs e (e.active.map (fun l => (d.toNat, l, f e.group l))) s)

/-- PLOG minor 0 (R235). -/
def execPlogAnd (d a b : BitVec 3) (s : State) : Host.Outcome State Fault Refusal :=
  run (gVec 0x17 0 []) (plog d (fun g l => g.readP a.toNat l && g.readP b.toNat l)) s

/-- PLOG minor 1 (R235). -/
def execPlogOr (d a b : BitVec 3) (s : State) : Host.Outcome State Fault Refusal :=
  run (gVec 0x17 1 []) (plog d (fun g l => g.readP a.toNat l || g.readP b.toNat l)) s

/-- PLOG minor 2 (R235). -/
def execPlogXor (d a b : BitVec 3) (s : State) : Host.Outcome State Fault Refusal :=
  run (gVec 0x17 2 []) (plog d (fun g l => g.readP a.toNat l != g.readP b.toNat l)) s

/-- PLOG minor 3 (R235). -/
def execPlogAndn (d a b : BitVec 3) (s : State) : Host.Outcome State Fault Refusal :=
  run (gVec 0x17 3 []) (plog d (fun g l => g.readP a.toNat l && !g.readP b.toNat l)) s

/-- PLOG minor 4 (R235). -/
def execPlogNot (d a : BitVec 3) (s : State) : Host.Outcome State Fault Refusal :=
  run (gVec 0x17 4 []) (plog d (fun g l => !g.readP a.toNat l)) s

/-- PLOG minor 5 (R235). -/
def execPlogMov (d a : BitVec 3) (s : State) : Host.Outcome State Fault Refusal :=
  run (gVec 0x17 5 []) (plog d (fun g l => g.readP a.toNat l)) s

end Sys2Proof.Machine
end

