-- ==== Sys2Proof/Machine/CrossLane.lean ====
section
/-! DEFINITION. Machine/CrossLane.lean: the cross-lane instructions XLANE: shuffles (R250, R251), votes and ballots (R252),
reductions (R221, R253, R254), scans (R255) and QAPP (R256, R257), each over segments of the group (R247, R263). -/

namespace Sys2Proof.Machine

/-! ## Segments -/

/-- The base of a lane's segment, and its relative lane (R247). -/
def Env.base (e : Env) (l : Nat) : Nat := l - l % e.seg
def Env.rel (e : Env) (l : Nat) : Nat := l % e.seg

/-- The active lanes of the segment of a lane. -/
def Env.mates (e : Env) (l : Nat) : List Nat := e.active.filter (fun j => e.base j == e.base l)

/-- The segments that hold an active lane, by their base. -/
def Env.segments (e : Env) : List Nat := (e.active.map e.base).eraseDups

/-! ## Shuffles -/

/-- The source lane of a shuffle: in range and present, else the lane itself (R251). -/
def shuffleFrom (e : Env) (j : Int) (l : Nat) : Nat :=
  if 0 ≤ j && j < e.seg && e.group.present.getLsbD (e.base l + j.toNat) then e.base l + j.toNat else l

/-- A shuffle by its source relative lane. -/
def shuffle (f : Nat → Nat → Int) (r : RArgs) : Env → State → Eff := vec fun e s =>
  needs e ((rSrcs r).flatMap (VSrc.opnds false) ++ [dstV r.d.toNat]) s
    (.done 1 (putVs e (e.active.map (fun l =>
      (r.d.toNat, l, e.group.readV r.a.toNat (shuffleFrom e (f (e.rel l) ((bSrc r.x r.b r.qb).read e false l)) l)))) s))

/-- SHFI: XLANE minor 0 (R250). -/
def execShfi (r : RArgs) (s : State) : Host.Outcome State Fault Refusal :=
  run (gRVec 0x20 0 r) (shuffle (fun _ b => b) r) s

/-- SHUP: XLANE minor 1 (R250). -/
def execShup (r : RArgs) (s : State) : Host.Outcome State Fault Refusal :=
  run (gRVec 0x20 1 r) (shuffle (fun l b => (l : Int) - b) r) s

/-- SHDN: XLANE minor 2 (R250). -/
def execShdn (r : RArgs) (s : State) : Host.Outcome State Fault Refusal :=
  run (gRVec 0x20 2 r) (shuffle (fun l b => (l : Int) + b) r) s

/-- SHXR: XLANE minor 3 (R250). -/
def execShxr (r : RArgs) (s : State) : Host.Outcome State Fault Refusal :=
  run (gRVec 0x20 3 r) (shuffle (fun l b => ((l ^^^ b : Nat) : Int)) r) s

/-! ## Votes -/

/-- VANY and VALL (R252). -/
def vote (all : Bool) (d a : BitVec 3) : Env → State → Eff := vec fun e s =>
  .done 1 (putPs e (e.active.map (fun l =>
    (d.toNat, l, if all then (e.mates l).all (e.group.readP a.toNat) else (e.mates l).any (e.group.readP a.toNat)))) s)

/-- VANY: XLANE minor 4 (R252). -/
def execVany (d a : BitVec 3) (s : State) : Host.Outcome State Fault Refusal := run (gVec 0x20 4 []) (vote false d a) s

/-- VALL: XLANE minor 5 (R252). -/
def execVall (d a : BitVec 3) (s : State) : Host.Outcome State Fault Refusal := run (gVec 0x20 5 []) (vote true d a) s

/-- BALLOT: XLANE minor 6 (R252). -/
def ballotBody (d : BitVec 6) (a : BitVec 3) : Env → State → Eff := vec fun e s =>
  needs e [dstV d.toNat, dstV (d.toNat + 1)] s
    (.done 1 (putVs e (e.active.flatMap (fun l =>
      unitWrites true d.toNat l (maskOf (((e.mates l).filter (e.group.readP a.toNat)).map e.rel)).toNat)) s))

def execBallot (d : BitVec 6) (a : BitVec 3) (s : State) : Host.Outcome State Fault Refusal :=
  run (gVec 0x20 6 [d.toNat, d.toNat + 1]) (ballotBody d a) s

/-! ## Reductions and scans -/

/-- One level of the tree of R221. -/
def treeLevel (comb : Nat → Nat → Res Nat) : List Nat → Res (List Nat)
  | a :: b :: r =>
    match comb a b, treeLevel comb r with
    | .ok (x, f), .ok (xs, g) => .ok (x :: xs, f ||| g)
    | .error c, _ => .error c
    | _, .error c => .error c
  | xs => .ok (xs, 0)

/-- TreeReduce (R221), `fuel` levels deep. -/
def treeReduce (comb : Nat → Nat → Res Nat) : Nat → List Nat → Res Nat
  | 0, xs => .ok (xs.headD 0, 0)
  | n + 1, xs =>
    match treeLevel comb xs with
    | .error c => .error c
    | .ok (ys, f) => (treeReduce comb n ys).flag f

/-- Levels of the tree for a segment. -/
def levels (seg : Nat) : Nat := seg.log2

/-- A reduction by element positions (R254): inactive and absent lanes enter as `ident`. -/
def reduce (accept : Nat → Bool) (ident : Nat → Nat) (comb : Rounding → Nat → Nat → Nat → Res Nat) (r : UArgs) :
    Env → State → Eff :=
  vecLanes accept r.d.toNat [.v r.a.toNat r.qa] (fun e t =>
    let k := roundingOf e.ctx.mr
    let segs : List (Nat × Res (List Nat)) := e.segments.map (fun b =>
      (b, collect ((List.range (perUnit t)).map (fun i =>
        treeReduce (comb k t) (levels e.seg) ((List.range e.seg).map (fun j =>
          if e.active.contains (b + j) then
            (elemsOf t (e.group.readUnit (wideType t) r.a.toNat (b + j))).getD i 0
          else ident t))))))
    e.active.map (fun l => (l, match segs.find? (fun x => x.1 == e.base l) with
      | some (_, .ok (xs, f)) => Except.ok (ofElems t xs, f)
      | some (_, .error c) => .error c
      | none => .ok (0, 0))))

/-- The gate of XLANE minors 7 to 15: 1 cycle a quad and 2 more (R168). -/
def gReduce (minor : Nat) (r : UArgs) : Gate := { gUVec 0x20 minor r 1 with extra := 2 }

/-- RADD: XLANE minor 7 (R253, R254). -/
def execRadd (r : UArgs) (s : State) : Host.Outcome State Fault Refusal :=
  run (gReduce 7 r) (reduce okInt (fun _ => 0) (fun _ t a b => .ok ((a + b) % 2 ^ elemWidth t, 0)) r) s

/-- RMIN: XLANE minor 8 (R253, R254). -/
def execRmin (r : UArgs) (s : State) : Host.Outcome State Fault Refusal :=
  run (gReduce 8 r) (reduce okInt (fun t => wrap (elemWidth t) (intMax t))
    (fun _ t a b => .ok (if ival t a ≤ ival t b then a else b, 0)) r) s

/-- RMAX: XLANE minor 9 (R253, R254). -/
def execRmax (r : UArgs) (s : State) : Host.Outcome State Fault Refusal :=
  run (gReduce 9 r) (reduce okInt (fun t => wrap (elemWidth t) (intMin t))
    (fun _ t a b => .ok (if ival t a ≤ ival t b then b else a, 0)) r) s

/-- Both operands of a float combination, read under R210. -/
def pairVals (k : Rounding) (t a b : Nat) : List Val := [floatVal t k.ftz a, floatVal t k.ftz b]

/-- FRADD: XLANE minor 10 (R253, R254). -/
def execFradd (r : UArgs) (s : State) : Host.Outcome State Fault Refusal :=
  run (gReduce 10 r) (reduce okFloat (fun _ => 0) (fun k t a b => rounded faddVal k t (pairVals k t a b)) r) s

/-- FRMIN: XLANE minor 11 (R253, R254). -/
def execFrmin (r : UArgs) (s : State) : Host.Outcome State Fault Refusal :=
  run (gReduce 11 r) (reduce okFloat (fun t => infBits t false) (fun k t a b => fminmax false k t (pairVals k t a b)) r) s

/-- FRMAX: XLANE minor 12 (R253, R254). -/
def execFrmax (r : UArgs) (s : State) : Host.Outcome State Fault Refusal :=
  run (gReduce 12 r) (reduce okFloat (fun t => infBits t true) (fun k t a b => fminmax true k t (pairVals k t a b)) r) s

/-- A scan: the sum over the active lanes of the segment that `before` admits (R255). -/
def scan (before : Nat → Nat → Bool) (r : UArgs) : Env → State → Eff :=
  vecLanes okWord r.d.toNat [.v r.a.toNat r.qa] (fun e t =>
    e.active.map (fun l => (l, .ok ((((e.mates l).filter (fun j => before j l)).map (fun j =>
      e.group.readUnit (wideType t) r.a.toNat j)).sum % 2 ^ elemWidth t, 0))))

/-- SCADD: XLANE minor 13 (R255). -/
def execScadd (r : UArgs) (s : State) : Host.Outcome State Fault Refusal :=
  run (gReduce 13 r) (scan (fun j l => j ≤ l) r) s

/-- SCADDX: XLANE minor 14 (R255). -/
def execScaddx (r : UArgs) (s : State) : Host.Outcome State Fault Refusal :=
  run (gReduce 14 r) (scan (fun j l => j < l) r) s

/-! ## QAPP -/

/-- The homes of the four bytes of a scratchpad word of the issuing team. -/
def spadWord (e : Env) (off : Nat) : List Nat := (span off 4).map (spadHome e.lower e.team)

/-- AtomicAdd32 at a word of scratchpad: the old value, and the state after the add. -/
def atomicAdd32 (writer : Nat) (hs : List Nat) (n : Nat) (s : State) : Nat × State :=
  let old := leNat (hs.map (homeByte s))
  (old, homeWrite writer (hs.zip (leBytes 4 (old + n))) s)

/-- One segment of QAPP (R256). DESIGN CHOICE (log 134): for the reservations of R303 the add is the write of the segment's lowest
selected lane. -/
def qappSegment (d : BitVec 6) (p : BitVec 3) (e : Env) (hs : List Nat) (s : State) (b : Nat) : State :=
  let lanes := e.active.filter (fun l => e.base l == b)
  let sel := lanes.filter (e.group.readP p.toNat)
  let (old, s) := if sel.isEmpty then (0, s) else atomicAdd32 (e.writer (sel.headD 0)) hs sel.length s
  let ws := sel.zipIdx.map (fun x => (d.toNat, x.1, word (old + x.2))) ++
    (lanes.filter (fun l => !sel.contains l)).map (fun l => (d.toNat, l, 0xFFFFFFFF))
  putVs e ws s

/-- QAPP: XLANE minor 15 (R256). DESIGN CHOICE (log 134): a counter past the extent, which only the preset w8 of a team without
scratchpad can name (R272), traps as any access there does, with PROTECTION. -/
def qappBody (d : BitVec 6) (w : BitVec 4) (p : BitVec 3) : Env → State → Eff := vec fun e s =>
  needs e [dstV d.toNat] s (
    let win := e.ctx.window w.toNat
    let addr := win.frame
    let hs := spadWord e addr
    if win.kind != .spad then .trap cWindowKind none 0 s
    else if addr % 4 != 0 then .trap cMisaligned none addr s
    else if e.team.extent < addr + 4 then .trap cProtection none addr s
    else if (homePlaces addr hs).any (lockHit s e.core e.team.f .atomic) then .trap cRangeLock none addr s
    else .done 1 (e.segments.foldl (qappSegment d p e hs) s))

def execQapp (d : BitVec 6) (w : BitVec 4) (p : BitVec 3) (s : State) : Host.Outcome State Fault Refusal :=
  run { gVec 0x20 15 [d.toNat] 1 with extra := 2 } (qappBody d w p) s

end Sys2Proof.Machine
end

