-- ==== Sys2Proof/Machine/Modular.lean ====
section
/-! DEFINITION. Machine/Modular.lean: modular arithmetic, VMOD (R243 to R245). QMOD is 0 while it is unset. -/

namespace Sys2Proof.Machine

/-- A VMOD minor on pairs: `f` gives the new D, and the new A of NTTB, from q and the operands. -/
def vmod (d a : Nat) (srcs : List VSrc) (f : Nat → List Nat → Nat × Option Nat) : Env → State → Eff := vec fun e s =>
  if e.ctx.qmod = 0 then .trap cModUnset none 0 s
  else needs e (srcs.flatMap (VSrc.opnds true) ++ (unitRegs true d).map dstV) s
    (.done 1 (putVs e (e.active.flatMap (fun l =>
      let r := f e.ctx.qmod (srcs.map (VSrc.read e true l))
      unitWrites true d l r.1 ++ (match r.2 with
        | some y => unitWrites true a l y
        | none => []))) s))

/-- The gate of VMOD: pairs are named, 4 or 8 cycles a quad (R168). -/
def gMod (minor : Nat) (r : RArgs) (cost : Nat := 4) : Gate :=
  { gVec 0x1D minor ((rNamed r).flatMap (fun x => [x, x + 1])) 1 with quadCost := cost, legacy := r.x }

/-- A VMOD minor that writes D only. -/
def vmod2 (f : Nat → Nat → Nat → Nat) (r : RArgs) : Env → State → Eff :=
  vmod r.d.toNat r.a.toNat (rSrcs r) (fun q xs => (f q (xs.getD 0 0) (xs.getD 1 0), none))

/-- MMUL: VMOD minor 0 (R245). -/
def execMmul (r : RArgs) (s : State) : Host.Outcome State Fault Refusal :=
  run (gMod 0 r) (vmod2 (fun q a b => a * b % q) r) s

/-- MADD: VMOD minor 1 (R245). -/
def execMadd (r : RArgs) (s : State) : Host.Outcome State Fault Refusal :=
  run (gMod 1 r) (vmod2 (fun q a b => (a + b) % q) r) s

/-- MSUB: VMOD minor 2 (R245): the result lies in 0..q − 1. -/
def execMsub (r : RArgs) (s : State) : Host.Outcome State Fault Refusal :=
  run (gMod 2 r) (vmod2 (fun q a b => (a + (q - b % q)) % q) r) s

/-- MRED: VMOD minor 3 (R245). -/
def execMred (r : UArgs) (s : State) : Host.Outcome State Fault Refusal :=
  run { gVec 0x1D 3 [r.d.toNat, r.d.toNat + 1, r.a.toNat, r.a.toNat + 1] 1 with quadCost := 4 }
    (vmod r.d.toNat r.a.toNat [.v r.a.toNat r.qa] (fun q xs => (xs.getD 0 0 % q, none))) s

/-- NTTB: VMOD minor 4 (R245): D is read as if it were A, and D and A are written. -/
def execNttb (r : RArgs) (s : State) : Host.Outcome State Fault Refusal :=
  run (gMod 4 r 8) (vmod r.d.toNat r.a.toNat (rSrcs r ++ [.v r.d.toNat r.qa]) (fun q xs =>
    let t := xs.getD 0 0 * xs.getD 1 0 % q
    let x := xs.getD 2 0
    ((x + t) % q, some ((x + (q - t)) % q)))) s

/-- MODQ: VMOD minor 5 (R244). -/
def modqBody (r : SrcArgs) (e : Env) (s : State) : Eff :=
  let a := r.a.toNat
  let q := e.ctx.readUnit true a
  needs e [srcS a r.qa, srcS (a + 1) r.qa] s
    (if q % 2 = 0 || q < 3 || 2 ^ 63 ≤ q then .trap cBadMode none 0 s
    else .done 1 (putCtx e (fun c => { c with qmod := q }) s))

def execModq (r : SrcArgs) (s : State) : Host.Outcome State Fault Refusal :=
  run { major := 0x1D, minor := 5 } (modqBody r) s

end Sys2Proof.Machine
end

