-- ==== Sys2Proof/Machine/Moves.lean ====
section
/-! DEFINITION. Machine/Moves.lean: the moves between lanes, scalars, predicates and special registers, MOVX (R258 to R260,
R160), with the special registers of R38 and their legacy view (R129). -/

namespace Sys2Proof.Machine

/-! ## V2S and S2V -/

/-- The lane V2S reads: none where it does nothing, LANE_RANGE where the index names no present lane (R258). -/
def v2sLane (e : Env) (k : Nat) : Except Nat (Option Nat) :=
  if k = 0xFFFFFFFF then .ok e.active.head?
  else if e.g ≤ k || !e.group.present.getLsbD k then .error cLaneRange
  else .ok (some k)

/-- V2S: MOVX minor 0 (R258). -/
def v2sBody (r : SArgs) (e : Env) (s : State) : Eff :=
  needs e [srcV r.a.toNat r.qa, srcS r.b.toNat r.qb, dstS r.d.toNat] s
    (match v2sLane e (e.ctx.readS r.b.toNat).toNat with
    | .error c => .trap c none 0 s
    | .ok none => .done 1 s
    | .ok (some j) => .done 1 (putS e r.d.toNat (e.group.readV r.a.toNat j) s))

def execV2s (r : SArgs) (s : State) : Host.Outcome State Fault Refusal :=
  run { major := 0x21, minor := 0, named := [r.a.toNat], legacy := true } (v2sBody r) s

/-- S2V: MOVX minor 1 (R258). -/
def s2vBody (r : UArgs) : Env → State → Eff := vec fun e s =>
  needs e [srcS r.a.toNat r.qa, dstV r.d.toNat] s
    (.done 1 (putVs e (e.active.map (fun l => (r.d.toNat, l, e.ctx.readS r.a.toNat))) s))

def execS2v (r : UArgs) (s : State) : Host.Outcome State Fault Refusal :=
  run { gVec 0x21 1 [r.d.toNat] with legacy := true } (s2vBody r) s

/-! ## Special registers -/

/-- A special register of a lane (R38, R129), but for those that a read changes. -/
def specialReg (e : Env) (n l : Nat) : Nat :=
  let t := e.thread l
  let w := e.team.w16
  match n with
  | 0 => if w then t % 16 else t % e.g
  | 1 => t
  | 2 => if w then t / 16 else e.gi
  | 3 => if w then 16 else e.g
  | 4 => if w then (e.team.teamsz + 15) / 16 else e.team.ngrp
  | 5 => e.team.idx
  | 6 => e.team.nteam
  | 7 => if e.team.prov then 1 else 0
  | 8 => e.core
  | 9 => clusterId e.core
  | 10 => e.team.f
  | 11 => if w then 0 else e.group.resl.toNat
  | 12 => e.ctx.mr.toNat
  | 14 => e.ctx.clk.toNat
  | 15 => e.ctx.exc.toNat
  | 16 => e.team.record + 0x60
  | _ => e.team.priv

/-- A read of CLKLO (R38): cycles in which no instruction of the model issued are a free number; the high half is latched. -/
def readClock (e : Env) (s : State) : Nat × State :=
  let (w, s) := s.drawWord
  let s := putCore e.core (fun c => { c with clk := c.clk + w.toNat }) s
  let n := (s.core e.core).clk
  (n % 2 ^ 32, putCtx e (fun c => { c with clk := hiWord n }) s)

/-- SRD: MOVX minor 2 (R259). -/
def srdBody (d n : BitVec 6) : Env → State → Eff := vec fun e s =>
  let pair := n.toNat = 16 || n.toNat = 17
  needs e ((unitRegs pair d.toNat).map dstV) s (
    if n.toNat = 13 then
      let (x, s) := readClock e s
      .done 1 (putVs e (e.active.map (fun l => (d.toNat, l, word x))) s)
    else
      let s := if n.toNat = 11 && !e.team.w16 then putGroup e (fun g => { g with resl := 0 }) s else s
      .done 1 (putVs e (e.active.flatMap (fun l => unitWrites pair d.toNat l (specialReg e n.toNat l))) s))

def execSrd (d n : BitVec 6) (s : State) : Host.Outcome State Fault Refusal :=
  run (gVec 0x21 2 (unitRegs (n.toNat = 16 || n.toNat = 17) d.toNat)) (srdBody d n) s

/-- SWR: MOVX minor 3 (R259): the value of the lowest active lane. -/
def swrBody (n : BitVec 6) (r : SrcArgs) : Env → State → Eff := vec fun e s =>
  let x := e.group.readV r.a.toNat (e.active.headD 0)
  needs e [srcV r.a.toNat r.qa] s (
    if n.toNat = 12 then
      (match mrCause x.toNat with
      | some c => .trap c none 0 s
      | none => .done 1 (putCtx e (fun c => { c with mr := x }) s))
    else if n.toNat = 15 then
      (if bits x.toNat 31 4 != 0 then .trap cReserved none 0 s else .done 1 (putCtx e (fun c => { c with exc := x }) s))
    else .trap cPriv none 0 s)

def execSwr (n : BitVec 6) (r : SrcArgs) (s : State) : Host.Outcome State Fault Refusal :=
  run (gVec 0x21 3 [r.a.toNat]) (swrBody n r) s

/-! ## Predicates and MR -/

/-- The predicates of a lane as a word: bit k is pk. -/
def packPreds (g : Group) (l : Nat) : Nat := ((List.range 8).map (fun k => if g.readP k l then 2 ^ k else 0)).sum

/-- P2V: MOVX minor 4 (R260). -/
def execP2v (d : BitVec 6) (s : State) : Host.Outcome State Fault Refusal :=
  run (gVec 0x21 4 [d.toNat]) (vec fun e s => needs e [dstV d.toNat] s
    (.done 1 (putVs e (e.active.map (fun l => (d.toNat, l, word (packPreds e.group l)))) s))) s

/-- V2P: MOVX minor 5 (R260). -/
def execV2p (r : SrcArgs) (s : State) : Host.Outcome State Fault Refusal :=
  run (gVec 0x21 5 [r.a.toNat]) (vec fun e s => needs e [srcV r.a.toNat r.qa] s
    (.done 1 (putPs e (e.active.flatMap (fun l =>
      (List.range 8).map (fun k => (k, l, (e.group.readV r.a.toNat l).getLsbD k)))) s))) s

/-- MRS: MOVX minor 6 (R160). -/
def execMrs (d : BitVec 6) (s : State) : Host.Outcome State Fault Refusal :=
  run { major := 0x21, minor := 6, agent := .yes, legacy := true } (scalarOp [] [d.toNat] (fun c => [c.mr])) s

/-- MRW: MOVX minor 7 (R160). -/
def mrwBody (r : SrcArgs) (e : Env) (s : State) : Eff :=
  needs e [srcS r.a.toNat r.qa] s (
    let x := e.ctx.readS r.a.toNat
    match mrCause x.toNat with
    | some c => .trap c none 0 s
    | none => .done 1 (putCtx e (fun c => { c with mr := x }) s))

def execMrw (r : SrcArgs) (s : State) : Host.Outcome State Fault Refusal :=
  run { major := 0x21, minor := 7, agent := .yes, legacy := true } (mrwBody r) s

end Sys2Proof.Machine
end

