-- ==== Sys2Proof/Machine/Slice.lean ====
section
/-! DEFINITION. Machine/Slice.lean: what the Larder and the PF do to slices: keys and row blocks (R427, R430), the slice map (R432),
function enable and disable (R427, R458), TDISP (R435), SPDM and measurements (R433, R434), amendments (R436 to R440) and the
ERROR state (R443). -/

namespace Sys2Proof.Machine

/-! ## Keys (R427) -/

/-- A triple that the Larder's DRBG generates: what it draws is open. -/
def drawKeys (s : State) : KeyTriple × State :=
  let (a, s) := s.drawBytes 32
  let (b, s) := s.drawBytes 32
  let (c, s) := s.drawBytes 32
  ({ k1 := a, k2 := b, k3 := c }, s)

/-- The function's slot in every stack. -/
def putKeys (f : Nat) (k : Option KeyTriple) (s : State) : State :=
  { s with keySlots := (List.range Config.stackCount).foldl (fun t x => tput t (32 * x + f) k) s.keySlots }

/-- Fresh keys in a function's slots, and erased ones (R427). -/
def newKeys (f : Nat) (s : State) : State :=
  let (k, s) := drawKeys s
  putKeys f (some k) s
def eraseKeys (f : Nat) (s : State) : State := putKeys f none s

/-! ## The request being answered -/

/-- The function and the value of the request being answered. -/
def reqFunc (s : State) : Nat := (s.request.map (·.f)).getD 0
def reqValue (s : State) : Nat := (s.request.map (fun q => q.value.toNat)).getD 0
def reqMsg (s : State) : List Byte := (s.request.map (·.msg)).getD []
def reqTenant (s : State) : Bool := (s.request.map (·.tenant)).getD false

/-- MAPDATA with V = 1 (R432). -/
def execMapdataBind (s : State) : Host.Outcome State Fault Refusal := event (fun s => mapBind (reqFunc s) (reqValue s) s) s

/-- MAPDATA with V = 0 (R432). -/
def execMapdataScrub (s : State) : Host.Outcome State Fault Refusal := event (fun s => mapScrub (reqFunc s) s) s

/-! ## Answers of the Larder -/

/-- Whether the Larder answers: in service, or in the safe state once step 1 has passed (R466). -/
def larderAnswers (s : State) : Bool :=
  s.power == .service || (s.power == .safe && 1 < (tget s.csr 0 0x011).toNat)

/-- An answer: a first byte of the model's own, 1 for a response and 0 for an error or a refusal, then its contents. -/
def reply (f : Nat) (ok : Bool) (bs : List Byte) (s : State) : State :=
  { s with replies := s.replies ++ [(f, (if ok then 1 else 0) :: bs)] }

/-- A response whose contents belong to SPDM 1.3 and to the Larder's keys: free bytes. -/
def freeReply (f : Nat) (s : State) : State :=
  let (bs, s) := s.drawBytes 64
  reply f true bs s

/-- A request that the Larder cannot answer: in the safe state an SPDM ERROR of code Unspecified (R466; its number is SPDM's, log 137),
and without power nothing. -/
def larderSilent (f : Nat) (s : State) : State := if s.power == .safe then reply f false [0x05] s else s

/-- An SPDM request answered by `k`, where the Larder answers. -/
def spdm (k : Nat → State → State) (s : State) : State :=
  if larderAnswers s then k (reqFunc s) s else larderSilent (reqFunc s) s

/-- The algorithms of R433, each by its bit in the fields of SPDM's ALGORITHMS (log 137): Ed25519, SHA-512, SHA-512 for measurements,
secp384r1, AES-256-GCM. -/
def algorithms : List Byte := leBytes 4 0x200 ++ leBytes 4 0x4 ++ leBytes 4 0x8 ++ leBytes 2 0x10 ++ leBytes 2 0x2

/-- The chain of certificate slot 0, from the root to the device identity key (R433). -/
def certificateChain : List Byte := Config.rootCertificate ++ Config.intermediateCertificate ++ Config.deviceCertificate

/-- GET_VERSION (R433): SPDM 1.3. -/
def execGetVersion (s : State) : Host.Outcome State Fault Refusal := event (spdm (fun f => reply f true [0x13])) s
/-- GET_CAPABILITIES (R433). -/
def execGetCapabilities (s : State) : Host.Outcome State Fault Refusal := event (spdm freeReply) s
/-- NEGOTIATE_ALGORITHMS (R433). -/
def execNegotiateAlgorithms (s : State) : Host.Outcome State Fault Refusal := event (spdm (fun f => reply f true algorithms)) s
/-- GET_DIGESTS (R433): of slot 0. -/
def execGetDigests (s : State) : Host.Outcome State Fault Refusal := event (spdm (fun f => reply f true (sha512 certificateChain))) s
/-- GET_CERTIFICATE (R433): the request's value names the slot, and slot 0 alone holds a chain. -/
def execGetCertificate (s : State) : Host.Outcome State Fault Refusal :=
  event (spdm (fun f s => if reqValue s = 0 then reply f true certificateChain s else reply f false [] s)) s
/-- CHALLENGE (R433). -/
def execChallenge (s : State) : Host.Outcome State Fault Refusal := event (spdm freeReply) s

/-! ## Measurements (R434) -/

def wordBytes (w : Word) : List Byte := leBytes 4 w.toNat

/-- A digest of firmware: a free value, or zero bytes where the self-test did not reach the step (R434, R466). -/
def firmwareDigest (s : State) (step : Nat) : List Byte :=
  if s.power == .safe && (tget s.csr 0 0x011).toNat < step then zeros 64 else (List.range 64).map (Config.freeByte (3 + step))

/-- A measurement block of a function; in the safe state the function owns nothing. -/
def measurement (s : State) (f k : Nat) : List Byte :=
  let own : Func := if s.power == .safe then {} else s.func f
  let t : State := { s with funcs := [(f, own)] }
  match k with
  | 1 => firmwareDigest s 1
  | 2 => firmwareDigest s 6
  | 3 => firmwareDigest s 3
  | 4 => (List.range 8).flatMap (fun n => wordBytes (Config.capability n))
  | 5 => (List.range 4).flatMap (fun n => wordBytes (tget s.csr 0 (0x012 + n)))
  | 6 => (List.range 11).flatMap (fun n => wordBytes (funcCsr t f (0x100 + n))) ++ wordBytes (tdispWord t f) ++
      (List.range 64).flatMap (fun d => wordBytes (t.fcsr f (0x400 + d)))
  | 7 => sha512 ((List.range (nlb t f * nrb t f)).flatMap (fun i =>
      leBytes 8 (entryRead t (mapEntry t f (i / nrb t f) (i % nrb t f)))))
  | 8 => leBytes 4 own.amendDone ++ leBytes 4 own.lastId ++ padTo 64 own.lastDigest ++ leBytes 4 (if own.amendAbort then 1 else 0)
  | 9 => wordBytes (t.fcsr f 0x050)
  | _ => []

/-- GET_MEASUREMENTS: the block asked for, or all nine, and a signature. -/
def measureEvent : State → State :=
  spdm fun f s =>
    let k := reqValue s
    let (sig, s) := s.drawBytes 64
    reply f true ((if k = 0xFF then (List.range 9).flatMap (fun i => measurement s f (i + 1)) else measurement s f k) ++ sig) s

def execGetMeasurements (s : State) : Host.Outcome State Fault Refusal := event measureEvent s

/-! ## Sessions (R433) -/

/-- KEY_EXCHANGE: a fifth session is refused; a session is the host's or a tenant's, as the request is. -/
def keyExchange : State → State :=
  spdm fun f s =>
    let fn := s.func f
    if 4 ≤ fn.sessions.length then reply f false [] s
    else freeReply f (s.setFunc f { fn with
      sessions := fn.sessions ++ [{ id := fn.nextSession, tenant := reqTenant s }], nextSession := fn.nextSession + 1 })

def execKeyExchange (s : State) : Host.Outcome State Fault Refusal := event keyExchange s

/-- A request inside a session: the request's value names it. -/
def inSession (finished : Bool) (k : Func → Func) : State → State :=
  spdm fun f s =>
    if (s.func f).sessions.any (fun x => x.id == reqValue s && x.finished == finished) then freeReply f (s.setFunc f (k (s.func f)))
    else reply f false [] s

/-- Whether the request came inside a finished session of the host's, as every TDISP message does (R433), or of the tenant's (R436): its
value names the session. -/
def inHostSession (s : State) : Bool :=
  !reqTenant s && (s.func (reqFunc s)).sessions.any (fun x => x.id == reqValue s && x.finished && !x.tenant)
def inTenantSession (s : State) : Bool :=
  reqTenant s && (s.func (reqFunc s)).sessions.any (fun x => x.id == reqValue s && x.finished && x.tenant)

/-- FINISH: the handshake of a session is complete. -/
def execFinish (s : State) : Host.Outcome State Fault Refusal :=
  event (fun s => inSession false (fun fn => { fn with sessions := fn.sessions.map (fun x =>
    if x.id == reqValue s then { x with finished := true } else x) }) s) s
/-- HEARTBEAT. -/
def execHeartbeat (s : State) : Host.Outcome State Fault Refusal := event (inSession true id) s
/-- KEY_UPDATE: new keys in the same session. -/
def execKeyUpdate (s : State) : Host.Outcome State Fault Refusal := event (inSession true id) s
/-- END_SESSION. -/
def execEndSession (s : State) : Host.Outcome State Fault Refusal :=
  event (fun s => inSession true (fun fn => { fn with sessions := fn.sessions.filter (fun x => x.id != reqValue s) }) s) s

/-! ## TDISP (R435) -/

/-- A function's lines leave every L1 and its translations every TLB, unwritten: their memory is gone. -/
def dropLines (f : Nat) (s : State) : State :=
  { s with
    cores := s.cores.map (fun c => (c.1, { c.2 with
      l1 := c.2.l1.filter (fun b => match b.2 with
        | some x => x.f != f
        | none => false)
      tlb := c.2.tlb.filter (fun t => t.f != f) }))
    l2tlb := s.l2tlb.map (fun t => (t.1, t.2.filter (fun x => x.f != f))) }

/-- Whether every mapped row block of a function can be bound once more. -/
def canRebind (s : State) (f : Nat) : Bool := (mappedBlocks s f).all (fun e => pgenLeft s e.2)

def setTdisp (f : Nat) (t : Tdisp) (s : State) : State := s.setFunc f { s.func f with tdisp := t }

/-- LOCK_INTERFACE_REQUEST. -/
def lockEvent (s : State) : State :=
  let f := reqFunc s
  if f = 0 || s.power != .service || !inHostSession s || !(s.func f).enabled || (s.func f).tdisp != .unlocked || !canRebind s f then
    reply f false [] s
  else reply f true [] (setTdisp f .locked (rebindAll f (newKeys f (dropLines f s))))

def execLockInterface (s : State) : Host.Outcome State Fault Refusal := event lockEvent s

/-- START_INTERFACE_REQUEST: the agents may now take the queue's entries. -/
def startEvent (s : State) : State :=
  let f := reqFunc s
  if !inHostSession s || (s.func f).tdisp != .locked then reply f false [] s else reply f true [] (setTdisp f .run s)

def execStartInterface (s : State) : Host.Outcome State Fault Refusal := event startEvent s

/-- No saved team of a function comes back: no core waits for one. -/
def forgetSaved (f : Nat) (s : State) : State :=
  let s := s.setFunc f { s.func f with saved := [] }
  { s with cores := s.cores.map (fun c => (c.1, { c.2 with resumeWait := c.2.resumeWait.filter (·.f != f) })) }

/-- What STOP does to a function in any locked state: its teams fail and end at once, its memory is rebound, its ways are zero, its keys
new; its resources stay. Nothing of its teams or its launch records survives. -/
def stopFunction (f : Nat) (s : State) : State :=
  let s := faultUnits f cSliceViolation (dropLines f (dropTeams f (failTeams f cSliceViolation s)))
  let s := (ownedWays s f).foldl (fun s w => zeroWay w s) (rebindAll f (newKeys f s))
  let s := forgetSaved f (s.setFunc f { s.func f with restarts := [], waits := [], privUsed := [], amend := none })
  setTdisp f .unlocked s

/-- STOP_INTERFACE_REQUEST. -/
def stopEvent (s : State) : State :=
  let f := reqFunc s
  if f = 0 || !inHostSession s || (s.func f).tdisp == .unlocked then reply f false [] s else reply f true [] (stopFunction f s)

def execStopInterface (s : State) : Host.Outcome State Fault Refusal := event stopEvent s

/-! ## Function enable and disable (R427, R458) -/

/-- FUNCTION_ENABLE: keys, CONFIG_UNLOCKED. -/
def enableEvent (s : State) : State :=
  let f := reqFunc s
  if s.power != .service || 32 ≤ f || (s.func f).enabled || bit (s.fcsr f 0x118).toNat 31 then s
  else
    let s := newKeys f s
    s.setFunc f { s.func f with enabled := true, tdisp := .unlocked }

def execFunctionEnable (s : State) : Host.Outcome State Fault Refusal := event enableEvent s

/-- The registers that end with a tenancy: the world, the directory and the rings (R458). -/
def endedCsrs : List Nat := [0x045] ++ span 0x04A 6 ++ span 0x062 6 ++ span 0x070 16 ++ span 0x110 6

/-- The cores a function's agents serve, other than through the PF's default. -/
def ownCores (s : State) (f : Nat) : List Nat := if f = 0 then [] else servingCores s f

/-- FUNCTION_DISABLE of a VF: the steps of R458. -/
def disableEvent (s : State) : State :=
  let f := reqFunc s
  if f = 0 || !(s.func f).enabled then s
  else
    let s := if (s.func f).tdisp == .unlocked then s else stopFunction f s
    let s := s.setFunc f { s.func f with enabled := false }
    let s := faultUnits f cSliceViolation (dropLines f (dropTeams f s))
    let s := (ownCores s f).foldl (fun s c => scrubCore c s) s
    let s := (ownedWays s f).foldl (fun s w => zeroWay w s) s
    let blocks := mappedBlocks s f
    let s := blocks.foldl (fun s e => scrubBlock e.2 s) s
    let fn := s.func f
    let s := eraseKeys f s
    let s := s.setFunc f { fn with map := [], scrubbing := blocks.map (fun e => rbKey e.2), restarts := [], waits := [], loaded := [], privUsed := [],
                                   sessions := [], amend := none, csr := fn.csr.filter (fun c => !endedCsrs.contains c.1) }
    ((forgetSaved f s).setFcsr f 0x118 (word (0x80000000 + blocks.length))).due [{ instr := .scrubComplete f }]

def execFunctionDisable (s : State) : Host.Outcome State Fault Refusal := event disableEvent s

/-- SCRUB_COMPLETE: BUSY clears, and a function-level reset completes on the host port. -/
def execScrubComplete (f : Nat) (s : State) : Host.Outcome State Fault Refusal :=
  event (fun s => if bit (s.fcsr f 0x118).toNat 31 then
      reply f true [] ((s.setFunc f { s.func f with scrubbing := [] }).setFcsr f 0x118 0)
    else s) s

/-! ## ERROR (R443) -/

/-- A function enters ERROR: its teams fail, its unit contexts are FAULTED, its queues stop, its keys are erased. -/
def enterError (f : Nat) (s : State) : State :=
  if (s.func f).tdisp == .error then s
  else eraseKeys f (faultUnits f cSliceViolation (failTeams f cSliceViolation (setTdisp f .error s)))

/-- IDE_INTEGRITY_FAILURE. -/
def execIdeIntegrityFailure (s : State) : Host.Outcome State Fault Refusal := event (fun s => enterError (reqFunc s) s) s
/-- PARITY_ERROR. -/
def execParityError (s : State) : Host.Outcome State Fault Refusal := event (fun s => enterError (reqFunc s) s) s
/-- TDISP_PROTOCOL_VIOLATION: the PF is no TDI. -/
def execTdispProtocolViolation (s : State) : Host.Outcome State Fault Refusal :=
  event (fun s => if reqFunc s = 0 then s else enterError (reqFunc s) s) s

/-! ## Amendments (R436, R437) -/

def amFunc (b : List Byte) : Nat := imw b 0
def amCount (b : List Byte) : Nat := imw b 4
def amMove (b : List Byte) (i : Nat) : Nat := im b (0x40 + 8 * i) 8
def amSoct (b : List Byte) : Nat := im b 8 8
def amStack (b : List Byte) (k : Nat) : Nat := imw b (0x10 + 4 * k)
def amSmcfg (b : List Byte) : Nat := imw b 0x20

/-- The row blocks to move, in order: logical bank, row block, physical row block they go to. -/
def amBlocks (b : List Byte) : List (Nat × Nat × Nat) :=
  (List.range (amCount b)).flatMap (fun i =>
    let m := amMove b i
    (List.range (bits m 27 21 + 1)).map (fun j =>
      (bits m 13 0, bits m 20 14 + j,
        bits m 30 28 * 0x1000000000 + bits m 34 31 * 0x100000000 + bits m 40 35 * 0x4000000 + (bits m 47 41 + j) * 0x80000)))

/-- Code 2: the form of a body. -/
def amMalformed (s : State) (f : Nat) (b : List Byte) : Bool :=
  256 < amCount b || b.length != 0x40 + 8 * amCount b || amFunc b != f || (b.drop 0x24 |>.take 28).any (· != 0) ||
    bits (amSmcfg b) 31 20 != 0 || (List.range (amCount b)).any (fun i => bits (amMove b i) 63 48 != 0 ||
      127 < bits (amMove b i) 47 41 + bits (amMove b i) 27 21) ||
    (amBlocks b).any (fun x => nlb s f ≤ x.1 || nrb s f ≤ x.2.1) ||
    !((amBlocks b).map (fun x => (x.1, x.2.1))).Nodup

/-- The state with a body's sets in place of the function's. -/
def amSets (f : Nat) (b : List Byte) (s : State) : State :=
  let s := (s.setFcsr f 0x100 (loWord (amSoct b))).setFcsr f 0x101 (hiWord (amSoct b))
  ((List.range 4).foldl (fun s k => s.setFcsr f (0x105 + k) (word (amStack b k))) s).setFcsr f 0x10A (word (amSmcfg b))

/-- Clusters in which a function has saved teams (R416). -/
def savedClusters (s : State) (f : Nat) : List Nat :=
  ((List.range (dirSize s f)).filter (fun i => dirState s f i != 0)).filterMap (fun i =>
    match (regionRead f (dirImage s f i) 256 s).1 with
    | .ok hd => some (readHead hd).cluster
    | .error _ => none)

/-- Code 3: the sets. -/
def amSetsBad (s : State) (f : Nat) (b : List Byte) : Bool :=
  let octets : Nat → Nat → Bool := fun set c => (List.range 16).any (fun i => bit set (16 * c + i))
  !setsDisjoint (amSets f b s) || (savedClusters s f).any (fun c =>
    octets (s.fcsr64 f 0x100) c && !octets (amSoct b ||| s.fcsr64 f 0x102) c)

/-- Code 4: the destinations. -/
def amDestBad (s : State) (b : List Byte) : Bool :=
  let ds := (amBlocks b).map (fun x => x.2.2)
  ds.any (fun pa => !blockFree s pa) || !ds.Nodup

/-- Code 5: after the moves a logical bank would span two physical banks. -/
def amBankBad (s : State) (f : Nat) (b : List Byte) : Bool :=
  let moved := amBlocks b
  let after := (mappedBlocks s f).map (fun e =>
    match moved.find? (fun m => mapKey m.1 m.2.1 == e.1) with
    | some m => (e.1, m.2.2)
    | none => e)
  after.any (fun x => after.any (fun y => x.1 / 128 == y.1 / 128 && x.2 / 0x4000000 != y.2 / 0x4000000))

/-- The conditions that are tested again at acceptance. -/
def amRecheck (s : State) (f : Nat) (b : List Byte) : Nat :=
  if amSetsBad s f b then 3 else if amDestBad s b then 4 else if amBankBad s f b then 5 else 0

/-- The refusal code of a proposal, 0 for none. -/
def amRefusal (s : State) (f : Nat) (b : List Byte) : Nat :=
  if (s.func f).tdisp != .run || (s.func f).amend.isSome then 1
  else if amMalformed s f b then 2
  else amRecheck s f b

/-- AMEND_PROPOSE (R437), a TDISP request inside the host's session. -/
def proposeEvent (s : State) : State :=
  let f := reqFunc s
  let b := reqMsg s
  if s.power != .service || !inHostSession s then reply f false [] s
  else match amRefusal s f b with
  | 0 =>
    let fn := s.func f
    let id := fn.lastId + 1
    let s := s.setFunc f { fn with amend := some { body := b, id := id }, lastId := id, lastDigest := sha512 b,
                                   amendAbort := false }
    reply f true (leBytes 4 id ++ sha512 b) s
  | c => reply f false (leBytes 4 c) s

def execAmendPropose (s : State) : Host.Outcome State Fault Refusal := event proposeEvent s

def setAmend (f : Nat) (a : Option Amend) (s : State) : State := s.setFunc f { s.func f with amend := a }

/-! ## Activation (R438) -/

/-- The new sets: additions at once, ways at once, removed cores once their teams are gone. -/
def applySets (f : Nat) (b : List Byte) (s : State) : State :=
  let old := s
  let own : State → Nat → Bool := fun s c =>
    if isStack c then bit (s.fcsr f (0x105 + (c - 512) / 32)).toNat ((c - 512) % 32) else bit (s.fcsr64 f 0x100) (c / 8)
  let new := amSets f b s
  let leaving := (List.range 640).filter (fun c => own old c && !own new c)
  let both : Nat → Word := fun n => old.fcsr f n ||| new.fcsr f n
  let t := [0x100, 0x101, 0x105, 0x106, 0x107, 0x108].foldl (fun t n => t.setFcsr f n (both n)) new
  let t := passCores old (passWays f (ownedWays old f) (ownedWays new f) t)
  leaveCores f (t.setFunc f { t.func f with leaving := leaving })

/-- AMEND_ACCEPT (R437): the id and the digest, in one of the tenant's sessions. -/
def acceptEvent (s : State) : State :=
  let f := reqFunc s
  match (s.func f).amend with
  | none => reply f false [] s
  | some a =>
    if a.active || s.power != .service || !inTenantSession s then reply f false [] s
    else if imw (reqMsg s) 0 != a.id || (reqMsg s).drop 4 != sha512 a.body then reply f false [] (setAmend f none s)
    else match amRecheck s f a.body with
      | 0 =>
        let moves := (amBlocks a.body).map (fun x =>
          (mapKey x.1 x.2.1, x.2.2, entryPa (mapEntry s f x.1 x.2.1) 0))
        let s := (amBlocks a.body).foldl (fun s x => bindBlock f x.2.2 s) s
        reply f true [] (applySets f a.body (setAmend f (some { a with active := true, moves := moves }) s))
      | c => reply f false (leBytes 4 c) (setAmend f none s)

def execAmendAccept (s : State) : Host.Outcome State Fault Refusal := event acceptEvent s

/-- AMEND_REJECT (R437): the tenant discards a pending proposal. -/
def rejectEvent (s : State) : State :=
  let f := reqFunc s
  if s.power == .service && inTenantSession s && (s.func f).amend.any (fun a => !a.active) then reply f true [] (setAmend f none s) else reply f false [] s

def execAmendReject (s : State) : Host.Outcome State Fault Refusal := event rejectEvent s

/-- The end of an active amendment before COMMIT (R440): row blocks that have not passed FINAL stay where they are. -/
def abortAmend (f : Nat) (a : Amend) (s : State) : State :=
  let s := a.moves.zipIdx.foldl (fun s m =>
    if 2 ≤ tget a.stage 0 m.2 then s
    else
      let s := scrubBlock m.1.2.1 s
      { s with rowBlocks := tput s.rowBlocks (rbKey m.1.2.2) { rowBlock s m.1.2.2 with tracking := false, dirty := [] } }) s
  s.setFunc f { s.func f with amend := none, amendAbort := true }

/-- AMEND_ABORT and a Larder error (R440). -/
def abortEvent (s : State) : State :=
  let f := reqFunc s
  match (if s.power == .service && inHostSession s then (s.func f).amend else none) with
  | none => reply f false [] s
  | some a => reply f true [] (if a.active then abortAmend f a s else setAmend f none s)

def execAmendAbort (s : State) : Host.Outcome State Fault Refusal := event abortEvent s

/-- LARDER_ERROR: the active amendment of every function ends. -/
def larderErrorEvent (s : State) : State :=
  s.funcs.foldl (fun s e => match (s.func e.1).amend with
    | some a => if a.active then abortAmend e.1 a s else s
    | none => s) s

def execLarderError (s : State) : Host.Outcome State Fault Refusal := event larderErrorEvent s

/-- AMEND_STATUS (R439): what the tenant reads of the last amendment. -/
def statusEvent : State → State :=
  spdm fun f s =>
  let fn := s.func f
  reply f true (leBytes 4 fn.lastId ++ leBytes 4 fn.amendDone ++ leBytes 4 (if fn.amendAbort then 1 else 0) ++
    leBytes 4 (match fn.amend with
      | none => 0
      | some a => if a.active then 2 else 1)) s

def execAmendStatus (s : State) : Host.Outcome State Fault Refusal := event statusEvent s

/-! ## Moving row blocks (R438 to R440) -/

/-- MIGSTAT once a command has ended: BUSY clears, and REFUSED also tells of a command that was written meanwhile. -/
def setMig (f n dirty : Nat) (refused : Bool) (s : State) : State :=
  s.setFcsr f 0x117 (word ((if refused || bit (s.fcsr f 0x117).toNat 30 then 0x40000000 else 0) + dirty * 0x10000 + n))

/-- The block of a move that cannot be read, poisoned where it stands, with no record but the move's own (R449); a full table sets PZ
and adds a record of KIND 5 (R441). -/
def poisonSource (pa : Nat) (s : State) : State :=
  let t := poisonOf s pa
  if t.length < 4096 then { s with poison := tput s.poison (stackOf pa) (t ++ [pa / 64]) }
  else errorRecord (rbKey pa * 0x80000) 5 2 { s with rowBlocks := tput s.rowBlocks (rbKey pa) { rowBlock s pa with pz := true } }

/-- Whether the controller can read a block that it moves (R356, R440). -/
def moveRead (pa : Nat) (s : State) : Bool × State :=
  if isPoisoned s pa then (false, s)
  else match codeState (errorsAt s pa) with
    | .good => (true, s)
    | .correctable => (true, correctBlock pa s)
    | _ => (false, poisonSource pa s)

/-- A record of a move (R440, R442): the slice-logical address of the source, which the map still names, and the place at the
destination. -/
def moveRecord (f src dst kind : Nat) (s : State) : State :=
  noteLost (errorRing f (errorBytes (logicalOf s f src) dst kind 2) s)

/-- The block at the destination is poisoned, with a record of KIND 4; a full table sets PZ and adds one of KIND 5 (R441). -/
def poisonMoved (f src dst off : Nat) (s : State) : State :=
  let t := poisonOf s dst
  if t.contains ((dst + off) / 64) then moveRecord f (src + off) (dst + off) 4 s
  else if t.length < 4096 then
    moveRecord f (src + off) (dst + off) 4 { s with poison := tput s.poison (stackOf dst) (t ++ [(dst + off) / 64]) }
  else
    let s := { s with rowBlocks := tput s.rowBlocks (rbKey dst) { rowBlock s dst with pz := true } }
    moveRecord f src dst 5 (moveRecord f (src + off) (dst + off) 4 s)

/-- One block is copied whole, which makes it good (R441); one that cannot be read is zero at the destination, poisoned, and
recorded (R440). -/
def moveBlock (f src dst : Nat) (s : State) (off : Nat) : State :=
  match moveRead (src + off) s with
  | (true, s) => mendBlock (dst + off) true (rawWrite (dst + off) (readBytes s.mem (src + off) 64) s)
  | (false, s) => poisonMoved f src dst off (rawWrite (dst + off) (zeros 64) s)

/-- Rows of a row block are copied. -/
def moveRows (f src dst : Nat) (rows : List Nat) (s : State) : State :=
  rows.foldl (fun s r => (List.range 32).foldl (fun s b => moveBlock f src dst s (r * 0x800 + 64 * b)) s) s

/-- A row block at its new home: what stands in caches and lists under the old home is found under the new one. -/
def rehome (src dst : Nat) (s : State) : State :=
  let mv : Nat → Nat := fun h => if !hIsSpad h && hTarget h = 0 && rbKey (hAddr h) = rbKey src then h - src + dst else h
  let ln : Nat → Nat := fun l => mv (l * 64) / 64
  let keys {α : Type} : (Nat → Nat) → Tbl α → Tbl α := fun k t => t.foldl (fun u e => tput u (k e.1) e.2) []
  let ctx : Ctx → Ctx := fun c =>
    { c with collected := c.collected.map ln, win := c.win.map (fun w => (w.1, { w.2 with pframe := mv w.2.pframe })) }
  let res : Option Reservation → Option Reservation := fun r => r.map (fun x => { line := ln x.line })
  { s with
    cores := s.cores.map (fun c => (c.1, { c.2 with
      l1 := keys mv c.2.l1
      hamper := c.2.hamper.map (fun x => { x with line := ln x.line })
      ops := c.2.ops.map (fun o => (o.1, o.2.map (fun x => { x with home := x.home.map mv })))
      reservation := res c.2.reservation }))
    teams := s.teams.map (fun t => (t.1, { t.2 with ctx := ctx t.2.ctx, reservation := res t.2.reservation }))
    groups := s.groups.map (fun g => (g.1, { g.2 with ctx := ctx g.2.ctx, reserv := g.2.reserv.map (fun r => (r.1, res r.2)) }))
    releasers := keys ln (s.releasers.map (fun r => (r.1, r.2.map (fun x => { x with lines := x.lines.map ln }))))
    resident := keys ln s.resident }

/-- The row block a command names in an active amendment: its number, map key, destination, source and stage. -/
def migTarget (s : State) (f n : Nat) : Option (Amend × Nat × Nat × Nat × Nat) :=
  match (s.func f).amend with
  | none => none
  | some a => if !a.active then none else (a.moves[n]?).map (fun m => (a, m.1, m.2.1, m.2.2, tget a.stage 0 n))

def setStage (f n st : Nat) (a : Amend) (s : State) : State := setAmend f (some { a with stage := tput a.stage n st }) s

/-- The next row of a COPY goes at the next issue; with none left the command ends, and DIRTY tells of the rows written meanwhile. -/
def copyOn (f n src : Nat) (a : Amend) (s : State) : State :=
  let s := setAmend f (some a) s
  if a.rowsLeft.isEmpty then setMig f n (rowBlock s src).dirty.length false s
  else s.due [{ req := some { f := f, value := word n, args := [s.time + 1, 1] }, instr := .migcmdCopy }]

/-- MIGCMD COPY (R439): it begins, or, as its second argument tells, one more row of it is copied. The writes that other issuers make
between two rows mark theirs dirty. -/
def migCopy (s : State) : State :=
  let f := reqFunc s
  let n := bits (reqValue s) 15 0
  let goesOn := fwArg s 1 = 1
  match migTarget s f n with
  | none => setMig f n 0 (!goesOn) s
  | some (a, key, dst, src, st) =>
    if goesOn then copyOn f n src { a with rowsLeft := a.rowsLeft.drop 1 } (moveRows f src dst (a.rowsLeft.take 1) s)
    else if 2 ≤ st || !bit (tget (s.func f).map 0 key) 31 then setMig f n 0 true s
    else
      let rows := if st = 0 then List.range 256 else (rowBlock s src).dirty
      let s := { s with rowBlocks := tput s.rowBlocks (rbKey src) { rowBlock s src with tracking := true, dirty := [] } }
      copyOn f n src { a with stage := tput a.stage n 1, rowsLeft := rows } s

def execMigcmdCopy (s : State) : Host.Outcome State Fault Refusal := event migCopy s

/-- The context of a logical bank stays on the unit it was on until no row block of its bank is left there (R447). -/
def moveContext (f bank old : Nat) (s : State) : State :=
  let k := unitKey f bank
  let there := (mappedBlocks s f).any (fun e => e.1 / 128 == bank && e.2 / 0x4000000 == old)
  s.setUnit k { s.unit k with bankAt := if there then some old else none }

/-- MIGCMD FINAL. -/
def migFinal (s : State) : State :=
  let f := reqFunc s
  let n := bits (reqValue s) 15 0
  match migTarget s f n with
  | none => setMig f n 0 true s
  | some (a, key, dst, src, st) =>
    if st != 1 then setMig f n 0 true s
    else
      let s := moveRows f src dst (rowBlock s src).dirty s
      let s := { s with rowBlocks := tput s.rowBlocks (rbKey src) { rowBlock s src with tracking := false, dirty := [] } }
      let old := physBank s (unitKey f (key / 128))
      let s := rehome src dst (s.setFunc f { s.func f with map := tput (s.func f).map key (entryFor s dst) })
      let s := moveContext f (key / 128) old s
      setMig f n 0 false (setStage f n 2 a s)

def execMigcmdFinal (s : State) : Host.Outcome State Fault Refusal := event migFinal s

/-- MIGCMD RELEASE. -/
def migRelease (s : State) : State :=
  let f := reqFunc s
  let n := bits (reqValue s) 15 0
  match migTarget s f n with
  | none => setMig f n 0 true s
  | some (a, _, _, src, st) =>
    if st != 2 then setMig f n 0 true s else setMig f n 0 false (setStage f n 3 a (scrubBlock src s))

def execMigcmdRelease (s : State) : Host.Outcome State Fault Refusal := event migRelease s

/-- MIGCMD COMMIT: the amendment ends, and AMEND_DONE goes to the host. -/
def migCommit (s : State) : State :=
  let f := reqFunc s
  let n := bits (reqValue s) 15 0
  match (s.func f).amend with
  | none => setMig f n 0 true s
  | some a =>
    if !a.active || (List.range a.moves.length).any (fun k => tget a.stage 0 k != 3) then setMig f n 0 true s
    else
      let s := s.setFunc f { s.func f with amend := none, amendDone := (s.func f).amendDone + 1 }
      reply f true (leBytes 4 a.id) (setMig f n 0 false s)

def execMigcmdCommit (s : State) : Host.Outcome State Fault Refusal := event migCommit s

end Sys2Proof.Machine
end

