-- ==== Sys2Proof/Machine/Power.lean ====
section
/-! DEFINITION. Machine/Power.lean: power-up and the self-test (R464 to R467), throttling (R469, R470), loss of power (R466, R471),
and what reaches the device from outside: host memory writes (R46, R52), partner devices (R285, R286, R444), errors of stored
symbols (R356), evictions (R277, R305), and the acknowledgements of stores (R386). -/

namespace Sys2Proof.Machine

/-! ## Power (R464 to R466, R471) -/

/-- The device with all state lost; what it has sent stands, and the free values go on. -/
def bare (p : Power) (s : State) : State :=
  { power := p, free := s.free, irqs := s.irqs, replies := s.replies }

/-- The four words of a failed-unit record (R465): RESULT, STEP and KIND; INDEX; DETAIL; zero. -/
def failWords (step kind index detail : Nat) : List Word :=
  [word (1 + step % 256 * 0x10000 + kind % 256 * 0x1000000), word index, word detail, 0]

/-- A self-test that passes: the agents serve the PF. -/
def enterService (s : State) : State :=
  let s := bare .service s
  newKeys 0 (s.setFunc 0 { s.func 0 with enabled := true }) |> fun s => { s with csr := [(0x011, 6)] }

/-- A self-test that stops at a step: the safe state, with the record. -/
def enterSafe (step kind index detail : Nat) (s : State) : State :=
  let s := bare .safe s
  { s with csr := (0x011, word step) :: (failWords step kind index detail).zipIdx.map (fun p => (0x012 + p.2, p.1)) }

/-- POWER_ON: the outcome of the self-test is an empty list for a pass, else step, kind, index and detail of the fault. -/
def powerOnEvent (test : List Nat) (s : State) : State :=
  match test with
  | [] => enterService s
  | step :: r => enterSafe (step % 8) (r.getD 0 0) (r.getD 1 0) (r.getD 2 0) s

def execPowerOn (selfTest : List Nat) (s : State) : Host.Outcome State Fault Refusal := event (powerOnEvent selfTest) s

/-- POWER_LOSS. -/
def execPowerLoss (s : State) : Host.Outcome State Fault Refusal := event (bare .off) s

/-- THERMAL_TRIP: whichever sensor it was, the package removes its own core supplies. -/
def execThermalTrip (_sensor : Nat) (s : State) : Host.Outcome State Fault Refusal := event (bare .tripped) s

/-! ## Throttling (R469, R470) -/

/-- The steps a domain can move to: one up, one down, or to stopped. -/
def stepAllowed (cur next : Nat) : Bool := next = 5 || (next = cur + 1 && next ≤ 5) || next + 1 = cur

/-- THROTTLE: a domain's step changes, and nothing else. -/
def throttleEvent (domain level : Nat) (s : State) : State :=
  if (s.power == .service || s.power == .safe || s.power == .testing) && domain < 73 &&
      stepAllowed (tget s.domains 0 domain) level then
    { s with domains := tput s.domains domain level }
  else s

def execThrottle (domain level : Nat) (s : State) : Host.Outcome State Fault Refusal := event (throttleEvent domain level) s

/-! ## Host memory writes -/

/-- Whether a host memory write in a function's name is taken: in service, on an enabled function that is not in ERROR, and on
a locked slice only inside the tenant's stream (R435, R443). -/
def hostMay (s : State) (f : Nat) : Bool :=
  s.power == .service && (s.func f).enabled && (s.func f).tdisp != .error && driverMay s f

/-- The queues whose TAIL word a write covers (R46). -/
def tailsIn (s : State) (f a n : Nat) : List Nat :=
  let base := s.fcsr64 f 0x0D0 % 2 ^ 56
  if base = 0 then [] else (List.range 8).filter (fun q => a < base + 64 * q + 4 && base + 64 * q < a + n)

/-- HOST_WRITE: bytes of the function's own memory; a TAIL word wakes the agents as TAIL does, a KICK word as KICK does. -/
def hostWriteEvent (f a : Nat) (bs : List Byte) (s : State) : State :=
  if !hostMay s f || bs.isEmpty || !agMay s f a bs.length then s
  else
    let s := homeWrite 0 ((span a bs.length).zip bs) s
    (tailsIn s f a bs.length).foldl (fun s q => lookAtQueue (leadCore s f) f q s) s

def execHostWrite (f addr : Nat) (bytes : List Byte) (s : State) : Host.Outcome State Fault Refusal :=
  event (hostWriteEvent f addr bytes) s

/-! ## Evictions (R277, R305, R382) -/

/-- An entry of a TLB other than the one for a page. -/
def otherPage (f page : Nat) (t : TlbEntry) : Bool := !(t.f == f && t.va ≤ page * 0x10000 && page * 0x10000 < t.va + t.size)

/-- EVICTION: an L1 line goes home and is gone; a cached translation is forgotten; a line that is not retained leaves shared
memory, where its bytes read as before. -/
def evict (x : Evict) (s : State) : State :=
  match x with
  | .l1 core line => dropClean core (fun h _ => h / 64 == line) (writeBack core (fun h _ => h / 64 == line) s)
  | .tlb core f page => putCore core (fun c => { c with tlb := c.tlb.filter (otherPage f page) }) s
  | .l2tlb g f page => { s with l2tlb := tput s.l2tlb g ((tget s.l2tlb [] g).filter (otherPage f page)) }
  | .shared line =>
    { s with resident := s.resident.filter (fun r => r.1 != line || isRetained r) }

def execEviction (what : Evict) (s : State) : Host.Outcome State Fault Refusal := event (evict what) s

/-! ## Errors of stored symbols (R356) -/

/-- SOFT_ERROR: symbols of the stored codeword at a stack address change, each place by a difference. -/
def softError (pa : Nat) (symbols : List (Nat × Nat)) (s : State) : State :=
  let es := addErrors (errorsAt s pa) (symbols.map (fun e => (e.1, e.2 % 256)))
  if Config.stackBytes ≤ pa then s
  else { s with bad := if es.isEmpty then tdel s.bad (pa / 64) else tput s.bad (pa / 64) es }

def execSoftError (addr : Nat) (symbols : List (Nat × Nat)) (s : State) : Host.Outcome State Fault Refusal := event (softError addr symbols) s

/-! ## The Oxelo domain (R285, R286, R303, R444) -/

/-- LINK_START: the two Larders attest each other; whether the peer passes is open, and a port whose peer fails carries no
traffic. -/
def linkStart (d : Nat) (s : State) : State :=
  let (w, s) := s.drawWord
  { s with linkUp := tput s.linkUp d (bit w.toNat 0) }

def execLinkStart (domid : Nat) (s : State) : Host.Outcome State Fault Refusal := event (linkStart domid) s

/-- LINK_DOWN. -/
def execLinkDown (domid : Nat) (s : State) : Host.Outcome State Fault Refusal :=
  event (fun s => { s with linkUp := tput s.linkUp domid false }) s

/-- The function whose domain entry for a device names a function of that device (R444). -/
def domainOwner (s : State) (d rf : Nat) : Option Nat :=
  (List.range 32).find? (fun f =>
    let en := (s.fcsr f (0x400 + d)).toNat
    (s.func f).enabled && keyed s f && bit en 31 && bits en 4 0 == rf)

/-- Bytes of an operation. -/
def opSize : RemoteOp → Nat
  | .load n => n
  | .store bs => bs.length
  | .atomic _ wide _ _ => if wide then 8 else 4

/-- The number under which a thread of a partner device writes and holds its reservation. -/
def remoteWriter (r : RemoteReq) : Nat := 2 ^ 40 + (r.dom * 32 + r.fn) * 2 ^ 40 + r.thread

/-- An atomic of a partner device at the home (R300 to R303). -/
def remoteAtomic (op : Nat) (wide : Bool) (x y : Nat) (who : Nat) (hs : List Nat) (s : State) : Nat × State :=
  let n := if wide then 8 else 4
  let line := hs.headD 0 / 64
  let old := leNat (hs.map (homeByte s))
  let store : Nat → State → State := fun v s => homeWrite who (hs.zip (leBytes n v)) s
  if op = aLr then (old, { s with remoteRes := tput s.remoteRes who (some { line := line }) })
  else if op = aSc then
    let held := tget s.remoteRes none who == some { line := line }
    let s := if held then store x s else s
    ((if held then 0 else 1), { s with remoteRes := tput s.remoteRes who none })
  else
    let new := atomNew op (8 * n) old x y
    (old, if alwaysStores op || new != old then store new s else s)

/-- What an accepted access answers, and what it does. -/
def remotePerform (r : RemoteReq) (hs : List Nat) (s : State) : List Byte × State :=
  let s := reachHomes hs s
  match r.op with
  | .load _ => (hs.map (homeByte s), s)
  | .store bs => ([], homeWrite (remoteWriter r) (hs.zip bs) s)
  | .atomic op wide x y =>
    let (v, s) := remoteAtomic op wide x.toNat y.toNat (remoteWriter r) hs s
    (leBytes (if wide then 8 else 4) v, s)

/-- Whether the operation reads its location. -/
def opReads : RemoteOp → Bool
  | .load _ => true
  | .store _ => false
  | .atomic op _ _ _ => op != aStrl

/-- REMOTE_ACCESS: accepted only through the domain table of one of this device's functions, and only within its stack extent;
a poisoned block answers POISON, a refusal REMOTE_FAIL. -/
def remoteEvent (r : RemoteReq) (s : State) : State :=
  let s := if tget s.linkUp false r.dom then countFlits s else s
  let refused : Nat → State → State := fun f s => reply f false (leBytes 2 cRemoteFail) s
  match (if s.power == .service && tget s.linkUp false r.dom then domainOwner s r.dom r.fn else none) with
  | none => refused 0 s
  | some f =>
    match (span r.addr (opSize r.op)).mapM (stackHome s f) with
    | none => refused f s
    | some hs =>
      match (if opReads r.op then checkHomes hs s else (none, s)) with
      | (some c, s) => reply f false (leBytes 2 c) s
      | (none, s) =>
        let (bs, s) := remotePerform r hs s
        reply f true bs s

def execRemoteAccess (req : RemoteReq) (s : State) : Host.Outcome State Fault Refusal := event (remoteEvent req) s

/-- REMOTE_STORE_ACK: the oldest store of a core that is on its way outside is answered; a refusal marks its team (R286). -/
def remoteAck (core : Nat) (ok : Bool) (s : State) : State :=
  match s.outStores.find? (fun o => o.core == core) with
  | none => s
  | some o =>
    let s := { s with outStores := s.outStores.erase o }
    if ok || 0x100000 ≤ o.team || (tget s.teams {} o.team).status == .free then s
    else { s with teams := tput s.teams o.team { tget s.teams {} o.team with remoteFail := true } }

def execRemoteStoreAck (core : Nat) (ok : Bool) (s : State) : Host.Outcome State Fault Refusal := event (remoteAck core ok) s

end Sys2Proof.Machine
end

