-- ==== Sys2Proof/Machine/Dispatch.lean ====
section
/-! DEFINITION. Machine/Dispatch.lean: one arm for each row of the opcode table. -/

namespace Sys2Proof.Machine

def exec (i : Instr) (s : State) : Host.Outcome State Fault Refusal :=
  match i with
  | .nop => Sys2Proof.Machine.execNop s
  | .exit => Sys2Proof.Machine.execExit s
  | .yield => Sys2Proof.Machine.execYield s
  | .ret => Sys2Proof.Machine.execRet s
  | .join a => Sys2Proof.Machine.execJoin a s
  | .leave a => Sys2Proof.Machine.execLeave a s
  | .bkpt => Sys2Proof.Machine.execBkpt s
  | .rcommit => Sys2Proof.Machine.execRcommit s
  | .jmpr r => Sys2Proof.Machine.execJmpr r s
  | .fail => Sys2Proof.Machine.execFail s
  | .resume => Sys2Proof.Machine.execResume s
  | .handler => Sys2Proof.Machine.execHandler s
  | .hold => Sys2Proof.Machine.execHold s
  | .step => Sys2Proof.Machine.execStep s
  | .waitPage => Sys2Proof.Machine.execWaitPage s
  | .abort => Sys2Proof.Machine.execAbort s
  | .br imm => Sys2Proof.Machine.execBr imm s
  | .brx b ts => Sys2Proof.Machine.execBrx b ts s
  | .tok j imm => Sys2Proof.Machine.execTok j imm s
  | .jmpf imm => Sys2Proof.Machine.execJmpf imm s
  | .call imm => Sys2Proof.Machine.execCall imm s
  | .mode d imm => Sys2Proof.Machine.execMode d imm s
  | .setw r => Sys2Proof.Machine.execSetw r s
  | .formGroups core slot => Sys2Proof.Machine.execFormGroups core slot s
  | .cfetch d a => Sys2Proof.Machine.execCfetch d a s
  | .cfetchWait d a => Sys2Proof.Machine.execCfetchWait d a s
  | .cland d => Sys2Proof.Machine.execCland d s
  | .landed core isl => Sys2Proof.Machine.execLanded core isl s
  | .movl d lit => Sys2Proof.Machine.execMovl d lit s
  | .movlScalar d lit => Sys2Proof.Machine.execMovlScalar d lit s
  | .trap n => Sys2Proof.Machine.execTrap n s
  | .handlerReturn => Sys2Proof.Machine.execHandlerReturn s
  | .saluAdd r => Sys2Proof.Machine.execSaluAdd r s
  | .saluSub r => Sys2Proof.Machine.execSaluSub r s
  | .saluMul r => Sys2Proof.Machine.execSaluMul r s
  | .saluMulhi r => Sys2Proof.Machine.execSaluMulhi r s
  | .mulhu r => Sys2Proof.Machine.execMulhu r s
  | .saluAnd r => Sys2Proof.Machine.execSaluAnd r s
  | .saluOr r => Sys2Proof.Machine.execSaluOr r s
  | .saluXor r => Sys2Proof.Machine.execSaluXor r s
  | .saluAndn r => Sys2Proof.Machine.execSaluAndn r s
  | .saluShl r => Sys2Proof.Machine.execSaluShl r s
  | .saluShr r => Sys2Proof.Machine.execSaluShr r s
  | .saluSar r => Sys2Proof.Machine.execSaluSar r s
  | .saluMin r => Sys2Proof.Machine.execSaluMin r s
  | .saluMax r => Sys2Proof.Machine.execSaluMax r s
  | .minu r => Sys2Proof.Machine.execMinu r s
  | .maxu r => Sys2Proof.Machine.execMaxu r s
  | .saluClz r => Sys2Proof.Machine.execSaluClz r s
  | .saluPopc r => Sys2Proof.Machine.execSaluPopc r s
  | .saluBrev r => Sys2Proof.Machine.execSaluBrev r s
  | .saluMov r => Sys2Proof.Machine.execSaluMov r s
  | .add64 r => Sys2Proof.Machine.execAdd64 r s
  | .sub64 r => Sys2Proof.Machine.execSub64 r s
  | .saddi r => Sys2Proof.Machine.execSaddi r s
  | .sli d imm => Sys2Proof.Machine.execSli d imm s
  | .scmp r => Sys2Proof.Machine.execScmp r s
  | .valuAdd r => Sys2Proof.Machine.execValuAdd r s
  | .valuSub r => Sys2Proof.Machine.execValuSub r s
  | .valuMul r => Sys2Proof.Machine.execValuMul r s
  | .valuMulhi r => Sys2Proof.Machine.execValuMulhi r s
  | .valuMin r => Sys2Proof.Machine.execValuMin r s
  | .valuMax r => Sys2Proof.Machine.execValuMax r s
  | .valuAnd r => Sys2Proof.Machine.execValuAnd r s
  | .valuOr r => Sys2Proof.Machine.execValuOr r s
  | .valuXor r => Sys2Proof.Machine.execValuXor r s
  | .valuAndn r => Sys2Proof.Machine.execValuAndn r s
  | .valuShl r => Sys2Proof.Machine.execValuShl r s
  | .valuShr r => Sys2Proof.Machine.execValuShr r s
  | .valuSar r => Sys2Proof.Machine.execValuSar r s
  | .rotl r => Sys2Proof.Machine.execRotl r s
  | .valuClz r => Sys2Proof.Machine.execValuClz r s
  | .valuPopc r => Sys2Proof.Machine.execValuPopc r s
  | .valuBrev r => Sys2Proof.Machine.execValuBrev r s
  | .abs r => Sys2Proof.Machine.execAbs r s
  | .neg r => Sys2Proof.Machine.execNeg r s
  | .valuMov r => Sys2Proof.Machine.execValuMov r s
  | .sel r => Sys2Proof.Machine.execSel r s
  | .bfe r => Sys2Proof.Machine.execBfe r s
  | .bfi r => Sys2Proof.Machine.execBfi r s
  | .addsat r => Sys2Proof.Machine.execAddsat r s
  | .subsat r => Sys2Proof.Machine.execSubsat r s
  | .div r => Sys2Proof.Machine.execDiv r s
  | .rem r => Sys2Proof.Machine.execRem r s
  | .vaddi r => Sys2Proof.Machine.execVaddi r s
  | .vcmp r => Sys2Proof.Machine.execVcmp r s
  | .plogAnd d a b => Sys2Proof.Machine.execPlogAnd d a b s
  | .plogOr d a b => Sys2Proof.Machine.execPlogOr d a b s
  | .plogXor d a b => Sys2Proof.Machine.execPlogXor d a b s
  | .plogAndn d a b => Sys2Proof.Machine.execPlogAndn d a b s
  | .plogNot d a => Sys2Proof.Machine.execPlogNot d a s
  | .plogMov d a => Sys2Proof.Machine.execPlogMov d a s
  | .fadd r => Sys2Proof.Machine.execFadd r s
  | .fsub r => Sys2Proof.Machine.execFsub r s
  | .fmul r => Sys2Proof.Machine.execFmul r s
  | .fmin r => Sys2Proof.Machine.execFmin r s
  | .fmax r => Sys2Proof.Machine.execFmax r s
  | .fabs r => Sys2Proof.Machine.execFabs r s
  | .fneg r => Sys2Proof.Machine.execFneg r s
  | .frcp r => Sys2Proof.Machine.execFrcp r s
  | .frsq r => Sys2Proof.Machine.execFrsq r s
  | .fsqrt r => Sys2Proof.Machine.execFsqrt r s
  | .fex2 r => Sys2Proof.Machine.execFex2 r s
  | .flg2 r => Sys2Proof.Machine.execFlg2 r s
  | .frnd r => Sys2Proof.Machine.execFrnd r s
  | .fdiv r => Sys2Proof.Machine.execFdiv r s
  | .fma r => Sys2Proof.Machine.execFma r s
  | .fms r => Sys2Proof.Machine.execFms r s
  | .fnma r => Sys2Proof.Machine.execFnma r s
  | .fnms r => Sys2Proof.Machine.execFnms r s
  | .mad r => Sys2Proof.Machine.execMad r s
  | .madhi r => Sys2Proof.Machine.execMadhi r s
  | .madw r => Sys2Proof.Machine.execMadw r s
  | .cvt t r => Sys2Proof.Machine.execCvt t r s
  | .cvth h z r => Sys2Proof.Machine.execCvth h z r s
  | .mmul r => Sys2Proof.Machine.execMmul r s
  | .madd r => Sys2Proof.Machine.execMadd r s
  | .msub r => Sys2Proof.Machine.execMsub r s
  | .mred r => Sys2Proof.Machine.execMred r s
  | .nttb r => Sys2Proof.Machine.execNttb r s
  | .modq r => Sys2Proof.Machine.execModq r s
  | .shfi r => Sys2Proof.Machine.execShfi r s
  | .shup r => Sys2Proof.Machine.execShup r s
  | .shdn r => Sys2Proof.Machine.execShdn r s
  | .shxr r => Sys2Proof.Machine.execShxr r s
  | .vany d a => Sys2Proof.Machine.execVany d a s
  | .vall d a => Sys2Proof.Machine.execVall d a s
  | .ballot d a => Sys2Proof.Machine.execBallot d a s
  | .radd r => Sys2Proof.Machine.execRadd r s
  | .rmin r => Sys2Proof.Machine.execRmin r s
  | .rmax r => Sys2Proof.Machine.execRmax r s
  | .fradd r => Sys2Proof.Machine.execFradd r s
  | .frmin r => Sys2Proof.Machine.execFrmin r s
  | .frmax r => Sys2Proof.Machine.execFrmax r s
  | .scadd r => Sys2Proof.Machine.execScadd r s
  | .scaddx r => Sys2Proof.Machine.execScaddx r s
  | .qapp d w p => Sys2Proof.Machine.execQapp d w p s
  | .v2s r => Sys2Proof.Machine.execV2s r s
  | .s2v r => Sys2Proof.Machine.execS2v r s
  | .srd d n => Sys2Proof.Machine.execSrd d n s
  | .swr n r => Sys2Proof.Machine.execSwr n r s
  | .p2v d => Sys2Proof.Machine.execP2v d s
  | .v2p r => Sys2Proof.Machine.execV2p r s
  | .mrs d => Sys2Proof.Machine.execMrs d s
  | .mrw r => Sys2Proof.Machine.execMrw r s
  | .ld r => Sys2Proof.Machine.execLd r s
  | .st r => Sys2Proof.Machine.execSt r s
  | .sld r => Sys2Proof.Machine.execSld r s
  | .sst r => Sys2Proof.Machine.execSst r s
  | .ldfe r => Sys2Proof.Machine.execLdfe r s
  | .ldfeClear r => Sys2Proof.Machine.execLdfeClear r s
  | .atomAdd r => Sys2Proof.Machine.execAtomAdd r s
  | .atomMin r => Sys2Proof.Machine.execAtomMin r s
  | .atomMax r => Sys2Proof.Machine.execAtomMax r s
  | .atomMinu r => Sys2Proof.Machine.execAtomMinu r s
  | .atomMaxu r => Sys2Proof.Machine.execAtomMaxu r s
  | .atomAnd r => Sys2Proof.Machine.execAtomAnd r s
  | .atomOr r => Sys2Proof.Machine.execAtomOr r s
  | .atomXor r => Sys2Proof.Machine.execAtomXor r s
  | .atomSwap r => Sys2Proof.Machine.execAtomSwap r s
  | .atomCas r => Sys2Proof.Machine.execAtomCas r s
  | .atomFadd r => Sys2Proof.Machine.execAtomFadd r s
  | .atomLr r => Sys2Proof.Machine.execAtomLr r s
  | .atomSc r => Sys2Proof.Machine.execAtomSc r s
  | .atomLdaq r => Sys2Proof.Machine.execAtomLdaq r s
  | .atomStrl r => Sys2Proof.Machine.execAtomStrl r s
  | .fence scope sem => Sys2Proof.Machine.execFence scope sem s
  | .bar a => Sys2Proof.Machine.execBar a s
  | .arrive a => Sys2Proof.Machine.execArrive a s
  | .waitb a => Sys2Proof.Machine.execWaitb a s
  | .win d a k => Sys2Proof.Machine.execWin d a k s
  | .pref r => Sys2Proof.Machine.execPref r s
  | .prefCompletion core id => Sys2Proof.Machine.execPrefCompletion core id s
  | .copy r => Sys2Proof.Machine.execCopy r s
  | .copyLanding core id => Sys2Proof.Machine.execCopyLanding core id s
  | .copyCompletion core id => Sys2Proof.Machine.execCopyCompletion core id s
  | .waitc m => Sys2Proof.Machine.execWaitc m s
  | .mloop r => Sys2Proof.Machine.execMloop r s
  | .commandStart core slot id => Sys2Proof.Machine.execCommandStart core slot id s
  | .tileStep core slot id => Sys2Proof.Machine.execTileStep core slot id s
  | .commandRetire core slot id => Sys2Proof.Machine.execCommandRetire core slot id s
  | .mwait r => Sys2Proof.Machine.execMwait r s
  | .aalloc r => Sys2Proof.Machine.execAalloc r s
  | .afree r => Sys2Proof.Machine.execAfree r s
  | .adrain r => Sys2Proof.Machine.execAdrain r s
  | .azero r => Sys2Proof.Machine.execAzero r s
  | .aquery r => Sys2Proof.Machine.execAquery r s
  | .bkld r => Sys2Proof.Machine.execBkld r s
  | .bkrun r => Sys2Proof.Machine.execBkrun r s
  | .bkwait r => Sys2Proof.Machine.execBkwait r s
  | .bkrd r => Sys2Proof.Machine.execBkrd r s
  | .bkst r => Sys2Proof.Machine.execBkst r s
  | .spawn d a p => Sys2Proof.Machine.execSpawn d a p s
  | .postr a => Sys2Proof.Machine.execPostr a s
  | .posts d w b => Sys2Proof.Machine.execPosts d w b s
  | .disp r => Sys2Proof.Machine.execDisp r s
  | .dispReserve r => Sys2Proof.Machine.execDispReserve r s
  | .dispRelease r => Sys2Proof.Machine.execDispRelease r s
  | .startTeam core slot => Sys2Proof.Machine.execStartTeam core slot s
  | .saveg r => Sys2Proof.Machine.execSaveg r s
  | .restg r => Sys2Proof.Machine.execRestg r s
  | .tlbinv r => Sys2Proof.Machine.execTlbinv r s
  | .shootdownAck core f => Sys2Proof.Machine.execShootdownAck core f s
  | .csrrd d a => Sys2Proof.Machine.execCsrrd d a s
  | .csrwr a b => Sys2Proof.Machine.execCsrwr a b s
  | .waitev r => Sys2Proof.Machine.execWaitev r s
  | .hostirq a => Sys2Proof.Machine.execHostirq a s
  | .squash r => Sys2Proof.Machine.execSquash r s
  | .confirm r => Sys2Proof.Machine.execConfirm r s
  | .resultWrite ref seq => Sys2Proof.Machine.execResultWrite ref seq s
  | .teamEnd core slot => Sys2Proof.Machine.execTeamEnd core slot s
  | .tail f q value => Sys2Proof.Machine.execTail f q value s
  | .admission core f q => Sys2Proof.Machine.execAdmission core f q s
  | .loadRecord core f q => Sys2Proof.Machine.execLoadRecord core f q s
  | .kick f q => Sys2Proof.Machine.execKick f q s
  | .claim core f rec => Sys2Proof.Machine.execClaim core f rec s
  | .retire core slot => Sys2Proof.Machine.execRetire core slot s
  | .restart core f ticket => Sys2Proof.Machine.execRestart core f ticket s
  | .ef0 core => Sys2Proof.Machine.execEf0 core s
  | .settlement core f rec => Sys2Proof.Machine.execSettlement core f rec s
  | .batchReady core f node => Sys2Proof.Machine.execBatchReady core f node s
  | .basketOpened core f node => Sys2Proof.Machine.execBasketOpened core f node s
  | .lapse core f node => Sys2Proof.Machine.execLapse core f node s
  | .graphIdle core f graph => Sys2Proof.Machine.execGraphIdle core f graph s
  | .saveNow core f rec => Sys2Proof.Machine.execSaveNow core f rec s
  | .worldSwitch octet => Sys2Proof.Machine.execWorldSwitch octet s
  | .switchAbandon octet => Sys2Proof.Machine.execSwitchAbandon octet s
  | .tinvctl f value => Sys2Proof.Machine.execTinvctl f value s
  | .watchhi core value => Sys2Proof.Machine.execWatchhi core value s
  | .agentstop core => Sys2Proof.Machine.execAgentstop core s
  | .dbgreqStop => Sys2Proof.Machine.execDbgreqStop s
  | .dbgreqResume => Sys2Proof.Machine.execDbgreqResume s
  | .dbgreqStep => Sys2Proof.Machine.execDbgreqStep s
  | .dbgreqFail => Sys2Proof.Machine.execDbgreqFail s
  | .dbgreqReadFrame => Sys2Proof.Machine.execDbgreqReadFrame s
  | .next m => Sys2Proof.Machine.execNext m s
  | .loop m => Sys2Proof.Machine.execLoop m s
  | .close m => Sys2Proof.Machine.execClose m s
  | .halt m => Sys2Proof.Machine.execHalt m s
  | .waitbc m => Sys2Proof.Machine.execWaitbc m s
  | .flag m => Sys2Proof.Machine.execFlag m s
  | .correction unit => Sys2Proof.Machine.execCorrection unit s
  | .contextSwitch bank => Sys2Proof.Machine.execContextSwitch bank s
  | .mapdataBind => Sys2Proof.Machine.execMapdataBind s
  | .mapdataScrub => Sys2Proof.Machine.execMapdataScrub s
  | .migcmdCopy => Sys2Proof.Machine.execMigcmdCopy s
  | .migcmdFinal => Sys2Proof.Machine.execMigcmdFinal s
  | .migcmdRelease => Sys2Proof.Machine.execMigcmdRelease s
  | .migcmdCommit => Sys2Proof.Machine.execMigcmdCommit s
  | .amendPropose => Sys2Proof.Machine.execAmendPropose s
  | .amendAccept => Sys2Proof.Machine.execAmendAccept s
  | .amendReject => Sys2Proof.Machine.execAmendReject s
  | .amendAbort => Sys2Proof.Machine.execAmendAbort s
  | .amendStatus => Sys2Proof.Machine.execAmendStatus s
  | .lockInterface => Sys2Proof.Machine.execLockInterface s
  | .startInterface => Sys2Proof.Machine.execStartInterface s
  | .stopInterface => Sys2Proof.Machine.execStopInterface s
  | .getVersion => Sys2Proof.Machine.execGetVersion s
  | .getCapabilities => Sys2Proof.Machine.execGetCapabilities s
  | .negotiateAlgorithms => Sys2Proof.Machine.execNegotiateAlgorithms s
  | .getDigests => Sys2Proof.Machine.execGetDigests s
  | .getCertificate => Sys2Proof.Machine.execGetCertificate s
  | .challenge => Sys2Proof.Machine.execChallenge s
  | .getMeasurements => Sys2Proof.Machine.execGetMeasurements s
  | .keyExchange => Sys2Proof.Machine.execKeyExchange s
  | .finish => Sys2Proof.Machine.execFinish s
  | .heartbeat => Sys2Proof.Machine.execHeartbeat s
  | .keyUpdate => Sys2Proof.Machine.execKeyUpdate s
  | .endSession => Sys2Proof.Machine.execEndSession s
  | .functionEnable => Sys2Proof.Machine.execFunctionEnable s
  | .functionDisable => Sys2Proof.Machine.execFunctionDisable s
  | .remoteAccess req => Sys2Proof.Machine.execRemoteAccess req s
  | .linkStart domid => Sys2Proof.Machine.execLinkStart domid s
  | .powerOn selfTest => Sys2Proof.Machine.execPowerOn selfTest s
  | .throttle domain level => Sys2Proof.Machine.execThrottle domain level s
  | .thermalTrip sensor => Sys2Proof.Machine.execThermalTrip sensor s
  | .csrWrite f n value => Sys2Proof.Machine.execCsrWrite f n value s
  | .hostWrite f addr bytes => Sys2Proof.Machine.execHostWrite f addr bytes s
  | .eviction what => Sys2Proof.Machine.execEviction what s
  | .softError addr symbols => Sys2Proof.Machine.execSoftError addr symbols s
  | .scrubComplete f => Sys2Proof.Machine.execScrubComplete f s
  | .powerLoss => Sys2Proof.Machine.execPowerLoss s
  | .linkDown domid => Sys2Proof.Machine.execLinkDown domid s
  | .remoteStoreAck core ok => Sys2Proof.Machine.execRemoteStoreAck core ok s
  | .ideIntegrityFailure => Sys2Proof.Machine.execIdeIntegrityFailure s
  | .parityError => Sys2Proof.Machine.execParityError s
  | .tdispProtocolViolation => Sys2Proof.Machine.execTdispProtocolViolation s
  | .larderError => Sys2Proof.Machine.execLarderError s
  | .unassignedEncoding w => Sys2Proof.Machine.execUnassignedEncoding w s
  | .tgt w => Sys2Proof.Machine.execTgt w s

end Sys2Proof.Machine
end

