-- ==== Sys2Proof/Machine/Due.lean ====
section
/-! DEFINITION. Machine/Due.lean: which steps that are due can be taken now, the timers (R67, R80, R391, R407), what a stopped
throttle domain holds up (R470), and how the step that is taken begins. -/

namespace Sys2Proof.Machine

/-! ## Stopped domains (R469, R470) -/

/-- The core an issuer runs on; a bank unit runs in the domain of its stack. -/
def whoRuns (s : State) (w : Who) : Bool :=
  match w with
  | .ctx (.agent c) _ => coreRuns s c
  | .ctx (.scalar c _) _ => coreRuns s c
  | .ctx (.group c sl g) _ => coreRuns s (s.group c sl g).core
  | .unit k => !domainStopped s (64 + physBank s k / 1024)

/-! ## What can be taken -/

/-- What is left of the time a step has to wait, where it has one: a timer on its core's clock, a tile step and the next row of
a COPY of an amendment on the issues of the whole machine. -/
def timeLeft (s : State) (d : Due) : Option Nat :=
  let at_ := (d.req.map (fun q => q.args.getD 0 0)).getD 0
  match d.instr with
  | .lapse c _ _ => some (at_ - (s.core c).clk)
  | .saveNow c _ _ => some (at_ - (s.core c).clk)
  | .tileStep _ _ _ => some (at_ - s.time)
  | .migcmdCopy => some (at_ - s.time)
  | _ => none

/-- Whether the agent a step belongs to can take it: it has not stopped. A claim is handed on by an agent that has. -/
def agentReady (s : State) (d : Due) : Bool :=
  match d.who with
  | some (.ctx (.agent c) _) => coreRuns s c && (!(s.core c).agentStopped || (match d.instr with
      | .claim _ _ _ => true
      | _ => false))
  | _ => true

/-- Whether the unit of a logical bank stands where an amendment may pause it: not between the two column writes of a block, and
not while a block is corrected (R367). -/
def betweenWords (s : State) (f bank : Nat) : Bool :=
  let u := s.unit (unitKey f bank)
  u.pendW.isNone && u.stalled.isNone

/-- The context on which an action of RTT that is due acts: none where it acts on a team, and for other steps. -/
def rttCtx (d : Due) : Option Nat :=
  match d.instr, d.stage with
  | .fail, some w | .resume, some w | .handler, some w | .hold, some w | .step, some w | .waitPage, some w | .abort, some w =>
    if bit w.toNat 28 then none else some (bits w.toNat 22 16)
  | _, _ => none

/-- Whether no frame of the same agent with a lower context awaits its action: an agent acts in ascending order (R403). -/
def lowestRtt (s : State) (d : Due) : Bool :=
  match rttCtx d with
  | none => true
  | some n => s.agenda.all (fun x => x.who != d.who || (rttCtx x).all (n ≤ ·))

/-- Whether a throttle domain has stopped, and whether an access to a home waits for one: a row of its stack, a scratchpad of its core
(R470). -/
def anyStopped (s : State) : Bool := s.domains.any (fun d => d.2 == 5)
def homeHeld (s : State) (h : Nat) : Bool := if hIsSpad h then !coreRuns s (hSpadCore h) else hTarget h == 0 && rowsHeld s (hAddr h)

/-- Whether an answer of an access is that it is held up. -/
def answersHeld {α : Type} (x : Except Nat α) : Bool :=
  match x with
  | .error c => c == cHeldUp
  | .ok _ => false

/-- Whether the present row of a copy reads or writes what has stopped. -/
def copyHeld (s : State) (core id : Nat) : Bool :=
  match opOf s core id with
  | none => false
  | some o => (List.range (rowWords o.desc - o.pos % rowWords o.desc)).any (fun i => [false, true].any (fun dst =>
      match (wordHomes core dst (o.pos + i) o s).1 with
      | .ok x => x.1.any (homeHeld s)
      | .error c => c == cHeldUp))

/-- The same of a PREF, of a copy into instruction memory, and of the moves of an amendment. -/
def prefHeld (s : State) (core id : Nat) : Bool :=
  match opOf s core id with
  | none => false
  | some o => (prefRun core (prefLines o - o.pos) o s).2.1 == some cHeldUp
def codeHeld (s : State) (core isl : Nat) : Bool :=
  match codeOp s core isl with
  | none => false
  | some (_, o) =>
    match codeHome core o s with
    | (.ok h, t) => answersHeld (codeBytes core o h t).1
    | (.error c, _) => c == cHeldUp
def migHeld (s : State) (f n : Nat) : Bool :=
  match migTarget s f n with
  | some m => domainStopped s (64 + stackOf m.2.2.1) || domainStopped s (64 + stackOf m.2.2.2.1)
  | none => false

/-- Whether the step's own condition holds (R279, R367, R410, R418, R451). -/
def conditionMet (s : State) (d : Due) : Bool :=
  let f := (d.req.map (·.f)).getD 0
  match d.instr with
  | .teamEnd c sl => coreRuns s c && ((s.team c sl).status != .ending || (s.team c sl).endedProv ||
      (quiet s c sl && unitsStopped s (s.team c sl) && storesAnswered s c sl))
  | .shootdownAck c g => s.shoots.all (fun k => !(k.f == g && k.pending.contains c && coreHolds s k c))
  | .worldSwitch o =>
    !bit (s.fcsr f 0x061).toNat 31 ||
      (if (d.req.map (fun q => q.args.getD 0 0)).getD 0 = 1 then s.agenda.all (fun x => match x.instr with
        | .restg _ => !x.req.any (fun q => q.f == bits (s.fcsr f 0x061).toNat 4 0)
        | _ => true)
      else (sharedTeams s f).all (fun t => t.1 / 16 / 8 != o))
  | .saveg _ =>
    (match d.who, d.req with
      | some (.ctx (.agent c) _), some q =>
        let sl := q.args.getD 1 0 % 16
        (s.team c sl).status == .free || (s.team c sl).endedProv || (!newFrame s c sl && saveReady s c sl)
      | _, _ => true)
  | .migcmdFinal =>
    (match migTarget s f (bits ((d.req.map (fun q => q.value.toNat)).getD 0) 15 0) with
      | some m => betweenWords s f (m.2.1 / 128) && !(anyStopped s && migHeld s f (bits ((d.req.map (fun q => q.value.toNat)).getD 0) 15 0))
      | none => true)
  | .remoteAccess q =>
    (match domainOwner s q.dom q.fn with
      | some g => (span q.addr (opSize q.op)).all (fun a => !(stackHome s g a).any (homeHeld s))
      | none => true)
  | .copyLanding c id => coreRuns s c && !(anyStopped s && copyHeld s c id)
  | .copyCompletion c _ => coreRuns s c
  | .prefCompletion c id => coreRuns s c && !(anyStopped s && prefHeld s c id)
  | .landed c isl => coreRuns s c && !(anyStopped s && codeHeld s c isl)
  | .hostWrite _ a bs => !(anyStopped s && (span a bs.length).any (homeHeld s))
  | .restg _ => !regionHeld s f ((d.req.map (fun q => q.args.getD 0 0)).getD 0)
  | .retire c sl => (d.req.map (fun q => q.args.getD 3 0)).getD 0 = 0 || storesAnswered s c sl
  | .migcmdCopy => !(anyStopped s && migHeld s f (bits ((d.req.map (fun q => q.value.toNat)).getD 0) 15 0))
  | .formGroups c sl =>
    let t := s.team c sl
    coreRuns s c && (t.setwWait.isNone || (!t.stopped && !t.saving && (setwGrant s c sl).isSome))
  | .startTeam c _ => coreRuns s c
  | .commandStart c _ _ => coreRuns s c
  | .tileStep c _ _ => coreRuns s c
  | .commandRetire c _ _ => coreRuns s c
  | .ef0 c => coreRuns s c
  | _ => true

/-- Whether a step that is due can be taken now. -/
def dueReady (s : State) (d : Due) : Bool :=
  agentReady s d && conditionMet s d && lowestRtt s d && (timeLeft s d).getD 0 == 0

/-- The first element for which `p` holds, and the list without it. -/
def takeFirst (p : Due → Bool) : List Due → Option (Due × List Due)
  | [] => none
  | d :: r => if p d then some (d, r) else (takeFirst p r).map (fun x => (x.1, d :: x.2))

/-- The oldest step that can be taken, and the steps that stay due. -/
def pickDue (s : State) (ds : List Due) : Option (Due × List Due) := takeFirst (dueReady s) ds

/-- The time left of a step that could be taken once it has passed. -/
def waitLeft (s : State) (d : Due) : Option Nat := if agentReady s d && conditionMet s d then timeLeft s d else none

/-- With nothing else to do, the time until the first thing that time brings: a step that is due at its time, or an ATIMER of a
core that runs; 1 where nothing waits for time. -/
def idleTime (s : State) : Nat :=
  ((s.agenda.filterMap (waitLeft s) ++
    (s.cores.filter (fun c => c.2.atimer != 0 && coreRuns s c.1)).map (fun c => c.2.atimer.toNat)).min?).getD 1

/-! ## Taking a step -/

/-- A step that is due begins: in the name of its agent, which writes STAGE first where it stages an action (R391), with the
request it answers. -/
def startDue (d : Due) (rest : List Due) (s : State) : State :=
  let s := { s with agenda := rest, who := d.who, request := d.req, waited := false }
  match d.who, d.stage with
  | some (.ctx (.agent c) _), some w => putCore c (fun x => { x with stage := w }) s
  | _, _ => s

/-- Time in which nothing can be done: the clocks of the cores that run go on, and their timers run down (R391, R400, R407). -/
def passTime (n : Nat) (s : State) : State :=
  (s.cores.filter (fun c => coreRuns s c.1)).foldl (fun s c => coreTicks c.1 n s) { s with time := s.time + n }

end Sys2Proof.Machine
end

