-- ==== Sys2Proof/Machine/Step.lean ====
section
/-! DEFINITION. Machine/Step.lean: one step of the machine: the oldest step that is due and can be taken, else the issue of one
instruction by the issuer whose turn it is, else the passing of time. -/

namespace Sys2Proof.Machine

/-- A gang or a single context issues the instruction at its PC. -/
def issueCtx (s : State) (e : Env) : Host.Outcome State Fault Refusal :=
  match fetchWords s e with
  | .error c => .next (settle { major := 0 } e (.trap c none 0 s))
  | .ok ws =>
    match decodeWords ws with
    | .ok i => exec (selectRow s e i) s
    | .error _ => .next (settle { major := 0 } e (.trap (refusedCause e (ws.headD 0)) none 0 s))

/-- A bank unit issues the microword at its PC (R351). -/
def issueUnit (s : State) (k : Nat) : Host.Outcome State Fault Refusal :=
  match decodeMicroword (unitWord (s.unit k)) with
  | some i => exec i s
  | none => .next { s with who := none }

/-- What stands at an issuer's PC, executed. -/
def issueAt (w : Who) (s : State) : Host.Outcome State Fault Refusal :=
  match w with
  | .unit k => issueUnit s k
  | .ctx _ _ =>
    match mkEnv s with
    | none => .next { s with who := none }
    | some e => issueCtx s e

/-- An issuer issues; a gang that had to wait did not issue, and is its group's current gang only where it was before. -/
def issue (w : Who) (s : State) : Host.Outcome State Fault Refusal :=
  match issueAt w (takeTurn w { s with who := some w, request := none }) with
  | .next t => .next (if t.waited then keepTurn w s t else t)
  | o => o

/-- With no issuer that can go on: a step that has become due, else time passes. -/
def idle (s : State) : Host.Outcome State Fault Refusal :=
  match pickDue s s.agenda with
  | some (d, rest) => exec d.instr (startDue d rest s)
  | none => .next (passTime (idleTime s) s)

/-- The first issuer that need not wait issues; an issuer that waits keeps what its instruction has done so far. -/
def issueFirst : List Who → State → Host.Outcome State Fault Refusal
  | [], s => idle s
  | w :: r, s =>
    match issue w s with
    | .next t => if t.waited then issueFirst r { t with waited := false } else .next t
    | o => o

/-- One step of the machine. -/
def step (s : State) : Host.Outcome State Fault Refusal :=
  match pickDue s s.agenda with
  | some (d, rest) => exec d.instr (startDue d rest s)
  | none =>
    match s.turn with
    | some w => issue w { s with turn := none, waited := false }
    | none => issueFirst ((issueOrder s).filter (whoRuns s)) { s with waited := false }

/-- The machine with the instruction of the table's bits as the next to issue. -/
def State.withFetchWord (s : State) (nbits w : Nat) : State := placeWords s (tableWords nbits w)

end Sys2Proof.Machine
end

