-- ==== Sys2Proof/Safety.lean ====
section
/-! DEFINITION. Safety.lean: the words claims are stated in: what an issuer must meet for an instruction to do its own work,
what a step leaves as it was, and what a safe state is. -/

namespace Sys2Proof.Machine

/-! ## What accounting for an issue leaves alone

Issuing counts cycles and events, stamps the issuer, moves its PC, and may stop it with a trap frame. Everything else of the
machine is what the instruction itself makes of it. The `content` views erase exactly what accounting writes. -/

/-- A register context but for its PC and the progress of a wait. -/
def Ctx.regs (c : Ctx) : Ctx := { c with pc := 0, progress := {} }

/-- A group but for its gangs' order, PCs and stamps, and whether it is stopped. -/
def Group.content (g : Group) : Group :=
  { g with ctx := g.ctx.regs, gangs := [], current := 0, streak := 0, stamp := 0, nextGang := 0, stopped := false,
           stepping := none }

/-- A team but for its stamp, whether its scalar context is stopped, and that context's PC. -/
def Team.content (t : Team) : Team := { t with ctx := t.ctx.regs, stamp := 0, stopped := false, stepping := false }

/-- A core but for its clock and timer, its event bits, its trap frames and how its agent stands. -/
def Core.content (c : Core) : Core :=
  { c with ctx := c.ctx.regs, agentStopped := false, agentStamp := 0, agentWork := false, events := 0, atimer := 0,
           frames := [], clk := 0 }

/-- A function but for its registers, which `Keeps.csrs` speaks of. -/
def Func.content (f : Func) : Func := { f with csr := [], msixPending := [] }

/-- Whether a per-function register is an event counter or its overflow word (R420, R421). -/
def isCounter (n : Nat) : Bool := 0x071 ≤ n && n < 0x07E

/-- `t` holds what `s` holds, but for what accounting for an issue writes. -/
structure Keeps (s t : State) : Prop where
  groups : ∀ c sl g, (t.group c sl g).content = (s.group c sl g).content
  teams : ∀ c sl, (t.team c sl).content = (s.team c sl).content
  cores : ∀ c, (t.core c).content = (s.core c).content
  funcs : ∀ f, (t.func f).content = (s.func f).content
  csrs : ∀ f n, isCounter n = false → t.fcsr f n = s.fcsr f n
  units : ∀ k, t.unit k = s.unit k
  banks : t.banks = s.banks
  mem : t.mem = s.mem
  rowBlocks : t.rowBlocks = s.rowBlocks
  poison : t.poison = s.poison
  bad : t.bad = s.bad
  watch : t.watch = s.watch
  releasers : t.releasers = s.releasers
  resident : t.resident = s.resident
  l2tlb : t.l2tlb = s.l2tlb
  outStores : t.outStores = s.outStores
  remoteRes : t.remoteRes = s.remoteRes
  shoots : t.shoots = s.shoots
  free : t.free = s.free
  keySlots : t.keySlots = s.keySlots
  power : t.power = s.power
  domains : t.domains = s.domains
  linkUp : t.linkUp = s.linkUp
  replies : t.replies = s.replies

/-- The state an instruction's own work leaves. -/
def Eff.state : Eff → State
  | .done _ s => s
  | .moved s => s
  | .trap _ _ _ s => s
  | .wait s => s

/-! ## What an issuer must meet -/

/-- The PC at which the issuer stands: its gang's, or its context's; none where the gang is gone. -/
def State.pcAt (s : State) (e : Env) : Option Word :=
  match e.ref with
  | .group c sl g => (findGang (s.group c sl g) e.gang.id).map (·.pc)
  | r => some (s.ctx r).pc

/-- No operand is pending and no source is empty (R152, R173). -/
def Free (e : Env) (ops : List Opnd) : Prop := ops.any (fun o => e.ctx.pending o.sc o.reg) = false ∧ firstEmpty e ops = none

/-- The issuer stands at its context, and no stall of R93, which only CONFIRM ends, holds it. -/
structure Issues (s : State) (e : Env) : Prop where
  env : mkEnv s = some e
  ready : e.stalled = false

/-- A gang of a group issues a vector instruction: some lane is active (R8), and the registers it names lie in the team's
partition (R35). -/
structure VecIssuer (s : State) (e : Env) (named : List Nat) : Prop where
  issues : Issues s e
  group : e.isGroup = true
  lanes : e.active.isEmpty = false
  inRange : ∀ r ∈ named, r < e.team.regs

/-- The whole group, active and present, issues an engine instruction (R476). -/
structure WholeGroup (s : State) (e : Env) : Prop where
  issues : Issues s e
  group : e.isGroup = true
  whole : maskOf e.active = e.gang.lanes
  all : e.gang.lanes = e.group.live

/-- The instruction's own work is done: the issuer stands `len` words on and the machine holds what `u` holds. -/
structure Ran (e : Env) (len : Nat) (u t : State) : Prop where
  pc : t.pcAt e = some (nextPc e len)
  rest : Keeps u t

/-- The instruction did not issue: it waits, and the machine holds what it held (R172). -/
structure Waits (s t : State) : Prop where
  waited : t.waited = true
  rest : Keeps s t

/-- Lane `l` of the issuing group stands at `pc`. -/
def LaneAt (t : State) (e : Env) (l : Nat) (pc : Word) : Prop :=
  ∃ x ∈ (t.group e.lower e.slot e.gi).gangs, x.lanes.getLsbD l = true ∧ x.pc = pc

/-- The group's other gangs stand as they did. -/
def OtherGangs (s t : State) (e : Env) : Prop :=
  ∀ x ∈ (s.group e.lower e.slot e.gi).gangs, x.id ≠ e.gang.id → x ∈ (t.group e.lower e.slot e.gi).gangs

/-- Data as it was: every byte of memory and scratchpad, every register of every context and lane, every core. What may have
changed is control: gangs, join slots, barriers, how a team stands, and what is due. -/
structure SameData (s t : State) : Prop where
  mem : t.mem = s.mem
  cores : ∀ c, (t.core c).content = (s.core c).content
  scalars : ∀ c sl, (t.team c sl).ctx.regs = (s.team c sl).ctx.regs
  groups : ∀ c sl g, (t.group c sl g).ctx.regs = (s.group c sl g).ctx.regs
  lanes : ∀ c sl g, (t.group c sl g).v = (s.group c sl g).v ∧ (t.group c sl g).p = (s.group c sl g).p
  csrs : ∀ f n, isCounter n = false → t.fcsr f n = s.fcsr f n
  units : ∀ k, t.unit k = s.unit k

/-- No byte of memory or scratchpad differs. -/
def SameBytes (s t : State) : Prop :=
  (∀ a, readByte t.mem a = readByte s.mem a) ∧ ∀ c a, readByte (t.core c).spad a = readByte (s.core c).spad a

/-- No byte of a core's L1 is dirty: then a load that fills the L1 writes nothing back (R1, R382). -/
def L1Clean (s : State) (core : Nat) : Prop := ∀ x ∈ (s.core core).l1, ∀ b, x.2 = some b → b.dirty = false

/-- Every byte of memory and scratchpad but those with a home in `hs` reads as before. -/
def BytesOutside (hs : List Nat) (s t : State) : Prop := ∀ h, h ∉ hs → homeByte t h = homeByte s h

/-- The context stopped with a trap: its frame holds the cause, lane, address, PCs and lanes, it is NEW, the agent's TRAP event is
set, and the machine holds what `s` held (R388, R389); an agent itself stops (R398). -/
structure Traps (e : Env) (cause lane addr : Nat) (rpc : Word) (s t : State) : Prop where
  frame : e.isAgent = false →
    let f := (t.core e.core).frame e.ctxNo
    f.new = true ∧ f.cause = cause ∧ f.lane = lane ∧ f.addr = (if 0x080 ≤ cause ∧ cause ≤ 0x0BF then addr else 0) ∧
      f.tpc = e.gang.pc ∧ f.rpc = rpc ∧ f.gang = e.gang.lanes ∧ f.record = e.team.record ∧ f.teamx = e.team.idx
  event : e.isAgent = false → (t.core e.core).events.getLsbD 0 = true
  scalar : e.isScalar = true → (t.team e.lower e.slot).stopped = true
  group : e.isGroup = true → (t.group e.lower e.slot e.gi).stopped = true
  agent : e.isAgent = true → (t.core e.core).agentStopped = true
  rest : Keeps s t

/-- An event, or a step of agent firmware, leaves the machine at `u`, between two steps. -/
def Becomes (i : Instr) (s u : State) : Prop := exec i s = .next { u with who := none, request := none }

/-- Instruction `i` does its own work: it moves one word on, and the machine holds what `u` holds. -/
def Does (i : Instr) (s : State) (e : Env) (u : State) : Prop := ∃ t, exec i s = .next t ∧ Ran e 1 u t

/-! ## Results of lanes -/

/-- `s` with the register (or, for a 64-bit type, the pair) `d` of each active lane at that lane's value. -/
def lanesWritten (e : Env) (wide : Bool) (d : Nat) (val : Nat → Nat) (s : State) : State :=
  putVs e (e.active.flatMap (fun l => unitWrites wide d l (val l))) s

/-- `s` with predicate `d` of each active lane at that lane's value. -/
def predsWritten (e : Env) (d : Nat) (val : Nat → Bool) (s : State) : State :=
  putPs e (e.active.map (fun l => (d, l, val l))) s

/-- The operands of a typed vector instruction, for the full/empty bits and the scoreboard (R152, R173). -/
def typedOpnds (e : Env) (d : Nat) (srcs : List VSrc) : List Opnd :=
  srcs.flatMap (VSrc.opnds (wideType (mrType e.ctx.mr))) ++ (unitRegs (wideType (mrType e.ctx.mr)) d).map dstV

/-- A typed vector instruction meets its TYPE, its pairs are even, and its registers lie in the partition (R225, R206, R35). -/
structure Fits (e : Env) (accepted : Bool) (d : Nat) (srcs : List VSrc) : Prop where
  type : accepted = true
  even : wideType (mrType e.ctx.mr) = true → d % 2 = 0 ∧ ∀ x ∈ srcs, x.reg % 2 = 0
  inRange : ∀ r ∈ unitRegs (wideType (mrType e.ctx.mr)) d ++ srcs.flatMap (VSrc.vregs (wideType (mrType e.ctx.mr))),
    r < e.team.regs

/-- A typed vector instruction fits its TYPE, and its operands are free (R152). -/
structure Typed (e : Env) (accepted : Bool) (d : Nat) (srcs : List VSrc) : Prop extends Fits e accepted d srcs where
  free : Free e (typedOpnds e d srcs)

/-- Element `i` of a unit under a type, as a bit vector of the element's width (R205). -/
def elem (t x i : Nat) : BitVec (elemWidth t) := BitVec.ofNat _ (x >>> (elemWidth t * i))

/-- A unit from the elements of a type, element 0 lowest. -/
def unitOf (t : Nat) (f : Nat → BitVec (elemWidth t)) : Nat :=
  ((List.range (perUnit t)).map (fun i => (f i).toNat * 2 ^ (elemWidth t * i))).sum

/-- The pattern a rounded result leaves, and the flags it raises. -/
def resVal : Res Nat → Nat
  | .ok (x, _) => x
  | .error _ => 0
def resFlags : Res Nat → Nat
  | .ok (_, f) => f
  | .error _ => 0

/-- `s` with the elements of D of each active lane at their rounded results, and their flags ORed into EXC (R37). -/
def roundedWritten (e : Env) (t d : Nat) (res : Nat → Nat → Res Nat) (s : State) : State :=
  orExc e ((e.active.flatMap (fun l => (List.range (perUnit t)).map (fun i => resFlags (res l i)))).foldl (· ||| ·) 0)
    (lanesWritten e (wideType t) d (fun l => unitOf t (fun i => BitVec.ofNat _ (resVal (res l i)))) s)

/-- A result that overflows under OVF 3 (R213). -/
def Res.overflows {α : Type} : Res α → Bool
  | .ok _ => false
  | .error _ => true

/-- An instruction of rounded results writes them and ORs their flags into EXC where no element of an active lane overflows under
OVF 3; where one does, it traps with FP_OVERFLOW in the lowest lane that has one, and writes nothing (R10, R205, R213). -/
def Rounds (i : Instr) (s : State) (e : Env) (t d : Nat) (res : Nat → Nat → Res Nat) : Prop :=
  let bad := fun (l : Nat) => (List.range (perUnit t)).any (fun k => (res l k).overflows)
  ((mrOvf e.ctx.mr ≠ 3 ∨ ∀ l ∈ e.active, bad l = false) →
    ∃ u, exec i s = .next u ∧ Ran e 1 (roundedWritten e t d res s) u) ∧
  ∀ l, mrOvf e.ctx.mr = 3 → e.active.find? bad = some l →
    ∃ u, exec i s = .next u ∧ Traps e cFpOverflow l 0 e.gang.pc s u

/-- The atomics by minor number (R299). -/
def atomics (r : AtomArgs) : List (Nat × Instr) :=
  [(0, .atomAdd r), (1, .atomMin r), (2, .atomMax r), (3, .atomMinu r), (4, .atomMaxu r), (5, .atomAnd r), (6, .atomOr r),
    (7, .atomXor r), (8, .atomSwap r), (9, .atomCas r), (10, .atomFadd r), (11, .atomLr r), (12, .atomSc r), (13, .atomLdaq r),
    (14, .atomStrl r)]

/-! ## The forms of the opcode table by what their words name -/

/-- The arguments of an atomic. -/
def atomArgs : Instr → Option AtomArgs
  | .atomAdd r | .atomMin r | .atomMax r | .atomMinu r | .atomMaxu r | .atomAnd r | .atomOr r | .atomXor r | .atomSwap r | .atomCas r
  | .atomFadd r | .atomLr r | .atomSc r | .atomLdaq r | .atomStrl r => some r
  | _ => none

/-- An atomic whose data are scalar registers (R147). -/
def scalarAtom (i : Instr) : Bool := (atomArgs i).any atomScalarData

/-- The instructions a context executes and the opcode map names: not a microword, nor a word of no instruction (R163). -/
def contextForm : Instr → Bool
  | .next _ | .loop _ | .close _ | .halt _ | .waitbc _ | .flag _ | .unassignedEncoding _ | .tgt _ => false
  | i => encode i != []

/-- The vector registers a word names, those its TYPE or its MR pairs with them aside (R35, R150). -/
def namedRegs : Instr → List Nat
  | .movl d _ | .p2v d | .spawn d _ _ | .qapp d _ _ => [d.toNat]
  | .valuAdd r | .valuSub r | .valuMul r | .valuMulhi r | .valuMin r | .valuMax r | .valuAnd r | .valuOr r | .valuXor r | .valuAndn r
  | .valuShl r | .valuShr r | .valuSar r | .rotl r | .sel r | .bfe r | .bfi r | .addsat r | .subsat r | .div r | .rem r
  | .fadd r | .fsub r | .fmul r | .fmin r | .fmax r | .fdiv r | .shfi r | .shup r | .shdn r | .shxr r =>
    [r.d.toNat, r.a.toNat] ++ (if r.x then [] else [r.b.toNat])
  | .valuClz r | .valuPopc r | .valuBrev r | .abs r | .neg r | .valuMov r | .fabs r | .fneg r | .frcp r | .frsq r | .fsqrt r
  | .fex2 r | .flg2 r | .frnd r | .radd r | .rmin r | .rmax r | .fradd r | .frmin r | .frmax r | .scadd r | .scaddx r
  | .cvt _ r => [r.d.toNat, r.a.toNat]
  | .cvth _ _ r => [r.d.toNat, r.a.toNat]
  | .vaddi r => [r.d.toNat, r.a.toNat]
  | .vcmp r => [r.a.toNat] ++ (if r.x then [] else [r.b.toNat])
  | .fma r | .fms r | .fnma r | .fnms r | .mad r | .madhi r => [r.d.toNat, r.a.toNat, r.b.toNat, r.c.toNat]
  | .madw r => [r.d.toNat, r.d.toNat + 1, r.a.toNat, r.b.toNat, r.c.toNat, r.c.toNat + 1]
  | .mmul r | .madd r | .msub r | .nttb r =>
    ([r.d.toNat, r.a.toNat] ++ (if r.x then [] else [r.b.toNat])).flatMap (fun x => [x, x + 1])
  | .mred r => [r.d.toNat, r.d.toNat + 1, r.a.toNat, r.a.toNat + 1]
  | .ballot d _ => [d.toNat, d.toNat + 1]
  | .v2s r => [r.a.toNat]
  | .s2v r => [r.d.toNat]
  | .srd d n => if n.toNat = 16 ∨ n.toNat = 17 then [d.toNat, d.toNat + 1] else [d.toNat]
  | .swr _ r | .v2p r | .jmpr r => [r.a.toNat]
  | .ld r | .st r => span r.d.toNat (szRegs r.sz.toNat) ++ addendReg r.a
  | .ldfe r | .ldfeClear r => span r.d.toNat (szRegs (r.sz.toNat + 4)) ++ addendReg r.a
  | .atomCas r => if atomScalarData r then [] else span r.d.toNat (2 * atomWords r) ++ addendReg r.a
  | .adrain r | .bkrd r => [r.d.toNat]
  | .bkst r => [r.b.toNat]
  | i => match atomArgs i with
    | some r => if atomScalarData r then [] else span r.d.toNat (atomWords r) ++ addendReg r.a
    | none => []

/-- The forms that name scalar registers or MR, which a W16 team does not reach (R24, R164). -/
def legacyForm : Instr → Bool
  | .valuAdd r | .valuSub r | .valuMul r | .valuMulhi r | .valuMin r | .valuMax r | .valuAnd r | .valuOr r | .valuXor r | .valuAndn r
  | .valuShl r | .valuShr r | .valuSar r | .rotl r | .sel r | .bfe r | .bfi r | .addsat r | .subsat r | .div r | .rem r
  | .fadd r | .fsub r | .fmul r | .fmin r | .fmax r | .fdiv r | .shfi r | .shup r | .shdn r | .shxr r => r.x
  | .vcmp r => r.x
  | .movlScalar _ _ | .v2s _ | .s2v _ | .mrs _ | .mrw _ => true
  | i => scalarAtom i

/-- An instruction whose operands are `ops` waits while one of them is pending; then an empty source makes it trap with FE_EMPTY or
wait, by its policy (R152, R173, R174). -/
def Blocks (i : Instr) (s : State) (e : Env) (ops : List Opnd) : Prop :=
  let pending := ops.any (fun o => e.ctx.pending o.sc o.reg)
  (pending = true → ∃ t, exec i s = .next t ∧ Waits s t) ∧
  (pending = false → firstEmpty e ops = some true → ∃ t, exec i s = .next t ∧ Traps e cFeEmpty e.reportLane 0 e.gang.pc s t) ∧
  (pending = false → firstEmpty e ops = some false → ∃ t, exec i s = .next t ∧ Waits s t)

/-! ## Safe states -/

/-- Every byte memory of the machine stands in its one canonical form. -/
def MemoryOk (s : State) : Prop := Memory.wf s.mem = true ∧ ∀ c, Memory.wf (s.core c).spad = true

/-- The gangs of every group have numbers below the one the group gives out next. -/
def GangsNumbered (s : State) : Prop := ∀ c sl g, ∀ x ∈ (s.group c sl g).gangs, x.id < (s.group c sl g).nextGang

/-- No instruction is half executed between steps. -/
def Settled (s : State) : Prop := s.who = none

end Sys2Proof.Machine
end

