-- ==== Sys2Proof/Certificates/Slice0/Obligations.lean ====
section
/-! DEFINITION. Certificates/Slice0/Obligations.lean: what is claimed of the machine, each from rules of spec/. `Ran e n u t` says
that the instruction did its own work: the issuer stands n words on and the machine holds what `u` holds, clocks, stamps and
event counters aside. A premise `Issues s e` names the issuer; one per profile, mode and operand follows the rules. -/

open Sys2Proof Sys2Proof.Machine

/-! ## Scalar instructions -/

/-- R228, R34: in every team but a W16 one, and in the agent slot, a SALU instruction with two sources writes sD, and nothing else
changes; shifts of 32 or more give 0 or the sign. ADD64 and SUB64 take and write pairs, low word in the even register (R3). -/
def Obligations.SaluTwoSources : Prop :=
  ∀ (r : SArgs) (s : State) (e : Env), Issues s e → e.profileL = false →
    let a := (s.ctx e.ref).readS r.a.toNat
    let b := (s.ctx e.ref).readS r.b.toNat
    let pair := fun (x : BitVec 6) => (s.ctx e.ref).readS (x.toNat + 1) ++ (s.ctx e.ref).readS x.toNat
    (Free e [srcS r.a.toNat r.qa, srcS (r.a.toNat + 1) r.qa, srcS r.b.toNat r.qb, srcS (r.b.toNat + 1) r.qb,
      dstS r.d.toNat, dstS (r.d.toNat + 1)] →
      ∀ p ∈ ([(.add64 r, pair r.a + pair r.b), (.sub64 r, pair r.a - pair r.b)] : List (Instr × BitVec 64)),
        ∃ t, exec p.1 s = .next t ∧
          Ran e 1 (putS e (r.d.toNat + 1) (p.2.extractLsb' 32 32) (putS e r.d.toNat (p.2.extractLsb' 0 32) s)) t) ∧
    (Free e [srcS r.a.toNat r.qa, srcS r.b.toNat r.qb, dstS r.d.toNat] → ∀ p ∈ ([
      (.saluAdd r, a + b), (.saluSub r, a - b), (.saluMul r, a * b),
      (.saluMulhi r, BitVec.ofInt 32 (a.toInt * b.toInt / 2 ^ 32)),
      (.mulhu r, BitVec.ofNat 32 (a.toNat * b.toNat / 2 ^ 32)),
      (.saluAnd r, a &&& b), (.saluOr r, a ||| b), (.saluXor r, a ^^^ b), (.saluAndn r, a &&& ~~~b),
      (.saluShl r, a <<< b.toNat), (.saluShr r, a >>> b.toNat), (.saluSar r, a.sshiftRight (min b.toNat 31)),
      (.saluMin r, if a.sle b then a else b), (.saluMax r, if a.sle b then b else a),
      (.minu r, if a ≤ b then a else b), (.maxu r, if a ≤ b then b else a)] : List (Instr × Word)),
      ∃ t, exec p.1 s = .next t ∧ Ran e 1 (putS e r.d.toNat p.2 s) t)

/-- R228 to R230, R116: the SALU instructions with one source, the immediate forms, and SCMP, which writes its predicate of every
lane of the gang, active or not, or the single predicate of the agent slot or of team-scalar mode; p0 stays true. -/
def Obligations.SaluOthers : Prop :=
  ∀ (r : UArgs) (x : IArgs) (y : ScmpArgs) (s : State) (e : Env), Issues s e → e.profileL = false →
    let val := fun (z : BitVec 6) => (s.ctx e.ref).readS z.toNat
    (Free e [srcS r.a.toNat r.qa, dstS r.d.toNat] →
      ∀ p ∈ ([(.saluClz r, (val r.a).clz), (.saluPopc r, (val r.a).cpop), (.saluBrev r, (val r.a).reverse), (.saluMov r, val r.a)] :
        List (Instr × Word)), ∃ t, exec p.1 s = .next t ∧ Ran e 1 (putS e r.d.toNat p.2 s) t) ∧
    (Free e [srcS x.a.toNat, dstS x.d.toNat] →
      ∃ t, exec (.saddi x) s = .next t ∧ Ran e 1 (putS e x.d.toNat (val x.a + x.imm.signExtend 32) s) t) ∧
    (Free e [dstS x.d.toNat] →
      ∃ t, exec (.sli x.d x.imm) s = .next t ∧ Ran e 1 (putS e x.d.toNat (x.imm.signExtend 32) s) t) ∧
    (Free e [srcS y.a.toNat y.qa, srcS y.b.toNat y.qb] → y.c.toNat ≤ 9 →
      let a := val y.a
      let b := val y.b
      let v := [a == b, a != b, a.slt b, a.sle b, b.slt a, b.sle a, a.ult b, a.ule b, b.ult a, b.ule a].getD y.c.toNat false
      ∃ t, exec (.scmp y) s = .next t ∧
        Ran e 1 (if e.isGroup then putPs e (e.gangLanes.map (fun l => (y.d.toNat, l, v))) s
          else putCtx e (fun c => c.writeP y.d.toNat v) s) t)

/-- R246: MOVL takes the word that follows it, to a vector register of each active lane or to a scalar register, and stands two words
on; R134: where that word lies beyond the slot, it traps with SEG_CROSS. -/
def Obligations.MovlTakesNextWord : Prop :=
  ∀ (d : BitVec 6) (lit : Word) (s : State) (e : Env), Issues s e →
    (VecIssuer s e [d.toNat] → Free e [dstV d.toNat] → pcWord e.gang.pc ≠ 1023 →
      ∃ t, exec (.movl d lit) s = .next t ∧ Ran e 2 (lanesWritten e false d.toNat (fun _ => lit.toNat) s) t) ∧
    (e.profileL = false → Free e [dstS d.toNat] → (pcWord e.gang.pc ≠ 1023 ∨ e.isAgent = true) →
      ∃ t, exec (.movlScalar d lit) s = .next t ∧ Ran e 2 (putS e d.toNat lit s) t) ∧
    (e.profileL = false → e.isAgent = false → pcWord e.gang.pc = 1023 →
      ∃ t, exec (.movlScalar d lit) s = .next t ∧ Traps e cSegCross e.reportLane 0 e.gang.pc s t)

/-! ## Vector instructions on integers -/

/-- R231, R205, R226: a VALU instruction with two sources writes, in each active lane, each element of D from the elements of A and B
under MR.TYPE, modulo 2^w, and raises no flag; B may be a scalar register except in a W16 team. -/
def Obligations.ValuTwoSources : Prop :=
  ∀ (r : RArgs) (s : State) (e : Env), VecIssuer s e (rNamed r) → (e.profileL = true → r.x = false) →
    let t := mrType e.ctx.mr
    let sg := signedType t
    let n := elemWidth t
    let arith := fun (x : Int) (lo hi : Int) => BitVec.ofInt n (max lo (min hi x))
    let val := fun (x : BitVec n) => if sg then x.toInt else (x.toNat : Int)
    let least : Int := if sg then -(2 ^ (n - 1)) else 0
    let most : Int := if sg then 2 ^ (n - 1) - 1 else 2 ^ n - 1
    ∀ p ∈ ([
      (.valuAdd r, intType t, fun x y => x + y), (.valuSub r, intType t, fun x y => x - y),
      (.valuMul r, intType t, fun x y => x * y),
      (.valuMulhi r, intType t, fun x y => BitVec.ofInt n (val x * val y / 2 ^ n)),
      (.valuMin r, intType t, fun x y => if val x ≤ val y then x else y),
      (.valuMax r, intType t, fun x y => if val x ≤ val y then y else x),
      (.valuShl r, intType t, fun x y => x <<< y.toNat), (.valuShr r, intType t, fun x y => x >>> y.toNat),
      (.valuSar r, intType t, fun x y => if sg then x.sshiftRight (min y.toNat (n - 1)) else x >>> y.toNat),
      (.rotl r, intType t, fun x y => x.rotateLeft (y.toNat % n)),
      (.addsat r, intType t, fun x y => arith (val x + val y) least most),
      (.subsat r, intType t, fun x y => arith (val x - val y) least most),
      (.valuAnd r, t ≤ 14, fun x y => x &&& y), (.valuOr r, t ≤ 14, fun x y => x ||| y),
      (.valuXor r, t ≤ 14, fun x y => x ^^^ y), (.valuAndn r, t ≤ 14, fun x y => x &&& ~~~y)] :
      List (Instr × Bool × (BitVec n → BitVec n → BitVec n))),
      Typed e p.2.1 r.d.toNat (rSrcs r) →
      ∃ u, exec p.1 s = .next u ∧
        Ran e 1 (lanesWritten e (wideType t) r.d.toNat (fun l => unitOf t (fun i =>
          p.2.2 (elem t (e.group.readUnit (wideType t) r.a.toNat l) i) (elem t ((bSrc r.x r.b r.qb).read e (wideType t) l) i))) s) u

/-- R231: the VALU instructions with one source. -/
def Obligations.ValuOneSource : Prop :=
  ∀ (r : UArgs) (s : State) (e : Env), VecIssuer s e [r.d.toNat, r.a.toNat] →
    let t := mrType e.ctx.mr
    let n := elemWidth t
    ∀ p ∈ ([
      (.valuClz r, intType t, fun x => x.clz), (.valuPopc r, intType t, fun x => x.cpop),
      (.valuBrev r, intType t, fun x => x.reverse), (.abs r, intType t, fun x => if signedType t && x.msb then -x else x),
      (.neg r, intType t, fun x => -x), (.valuMov r, t ≤ 14, fun x => x)] :
      List (Instr × Bool × (BitVec n → BitVec n))),
      Typed e p.2.1 r.d.toNat [.v r.a.toNat r.qa] →
      ∃ u, exec p.1 s = .next u ∧
        Ran e 1 (lanesWritten e (wideType t) r.d.toNat (fun l => unitOf t (fun i =>
          p.2.2 (elem t (e.group.readUnit (wideType t) r.a.toNat l) i))) s) u

/-- R231, R29, R30: SEL and BFI read the old D; BFE and BFI cut their field to the element; DIV and REM, of a W16 team, round toward
zero and give all ones and the dividend for a divisor of zero. -/
def Obligations.ValuFields : Prop :=
  ∀ (r : RArgs) (s : State) (e : Env), VecIssuer s e (rNamed r) → (e.profileL = true → r.x = false) →
    let t := mrType e.ctx.mr
    let n := elemWidth t
    let val := fun (x : BitVec n) => if signedType t then x.toInt else (x.toNat : Int)
    let off := fun (y : BitVec n) => (y.extractLsb' 0 8).toNat
    let len := fun (y : BitVec n) => if off y < n then min (y.extractLsb' 8 8).toNat (n - off y) else 0
    let mask := fun (y : BitVec n) => BitVec.ofNat n ((2 ^ len y - 1) * 2 ^ off y)
    let unit := fun (f : BitVec n → BitVec n → BitVec n → BitVec n) (l : Nat) => unitOf t (fun i =>
      f (elem t (e.group.readUnit (wideType t) r.a.toNat l) i) (elem t ((bSrc r.x r.b r.qb).read e (wideType t) l) i)
        (elem t (e.group.readUnit (wideType t) r.d.toNat l) i))
    (∀ p ∈ ([
      (.sel r, t ≤ 14, fun x y d => (x &&& d) ||| (y &&& ~~~d)),
      (.bfi r, t ≤ 3, fun x y d => (d &&& ~~~(mask y)) ||| ((x <<< off y) &&& mask y))] :
      List (Instr × Bool × (BitVec n → BitVec n → BitVec n → BitVec n))),
      Typed e p.2.1 r.d.toNat (rSrcs r ++ [.v r.d.toNat false]) →
      ∃ u, exec p.1 s = .next u ∧ Ran e 1 (lanesWritten e (wideType t) r.d.toNat (unit p.2.2) s) u) ∧
    (Typed e (t ≤ 3) r.d.toNat (rSrcs r) →
      ∃ u, exec (.bfe r) s = .next u ∧
        Ran e 1 (lanesWritten e (wideType t) r.d.toNat (unit (fun x y _ =>
          let z := (x >>> off y).extractLsb' 0 (len y)
          if signedType t then z.signExtend n else z.setWidth n)) s) u) ∧
    (∀ p ∈ ([
      (.div r, fun x y => if y = 0 then BitVec.allOnes n else BitVec.ofInt n ((val x).tdiv (val y))),
      (.rem r, fun x y => if y = 0 then x else BitVec.ofInt n ((val x).tmod (val y)))] :
      List (Instr × (BitVec n → BitVec n → BitVec n))),
      e.profileL = true → Typed e (t ≤ 1) r.d.toNat (rSrcs r) →
      ∃ u, exec p.1 s = .next u ∧
        Ran e 1 (lanesWritten e (wideType t) r.d.toNat (unit (fun x y _ => p.2 x y)) s) u)

/-- R232, R233: VADDI adds its sign-extended immediate to every element; MAD and MADHI add C to the low part and to the high part of
the product; MADW adds the 64-bit C to the whole product of two words, whatever pairs TYPE would name. -/
def Obligations.MultiplyAdd : Prop :=
  ∀ (x : IArgs) (r : QArgs) (s : State) (e : Env),
    let t := mrType e.ctx.mr
    let n := elemWidth t
    let val := fun (x : BitVec n) => if signedType t then x.toInt else (x.toNat : Int)
    let word := fun (x : Word) => if signedType t then x.toInt else (x.toNat : Int)
    let el := fun (y : BitVec 6) (l i : Nat) => elem t (e.group.readUnit (wideType t) y.toNat l) i
    decodeWords [0x54208001] = .ok (.vaddi ⟨2, 2, 1⟩) ∧
    (VecIssuer s e [x.d.toNat, x.a.toNat] → Typed e (intType t) x.d.toNat [.v x.a.toNat false] →
      ∃ u, exec (.vaddi x) s = .next u ∧
        Ran e 1 (lanesWritten e (wideType t) x.d.toNat (fun l => unitOf t (fun i =>
          el x.a l i + BitVec.ofInt n x.imm.toInt)) s) u) ∧
    (VecIssuer s e (qNamed r) →
      ∀ p ∈ ([
        (.mad r, intType t, fun x y z => x * y + z),
        (.madhi r, t ≤ 3, fun x y z => BitVec.ofInt n (val x * val y / 2 ^ n) + z)] :
        List (Instr × Bool × (BitVec n → BitVec n → BitVec n → BitVec n))),
        Typed e p.2.1 r.d.toNat (qSrcs r) →
        ∃ u, exec p.1 s = .next u ∧
          Ran e 1 (lanesWritten e (wideType t) r.d.toNat (fun l => unitOf t (fun i =>
            p.2.2 (el r.a l i) (el r.b l i) (el r.c l i))) s) u) ∧
    (VecIssuer s e (qNamed r ++ [r.d.toNat + 1, r.c.toNat + 1]) → t ≤ 1 →
      Free e [srcV r.a.toNat, srcV r.b.toNat, srcV r.c.toNat, srcV (r.c.toNat + 1), dstV r.d.toNat, dstV (r.d.toNat + 1)] →
      ∃ u, exec (.madw r) s = .next u ∧
        Ran e 1 (lanesWritten e true r.d.toNat (fun l =>
          (BitVec.ofInt 64 (word (e.group.readV r.a.toNat l) * word (e.group.readV r.b.toNat l)) +
            (e.group.readV (r.c.toNat + 1) l ++ e.group.readV r.c.toNat l)).toNat) s) u)

/-- R234, R235: VCMP and PLOG write their predicate of the active lanes and no register. Under F32 and F64 the conditions are those
of the values, false of a NaN but for NE and UNO; LT, LE, GT and GE of a NaN set NV, the others of a signalling NaN alone. -/
def Obligations.PredicateWrites : Prop :=
  ∀ (r : VcmpArgs) (d a b : BitVec 3) (s : State) (e : Env),
    let t := mrType e.ctx.mr
    let w := wideType t
    let val := fun (x : Nat) => if signedType t then (BitVec.ofNat (elemWidth t) x).toInt else (x : Int)
    let vx := fun l => e.group.readUnit w r.a.toNat l
    let vy := fun l => (bSrc r.x r.b r.qb).read e w l
    (VecIssuer s e ([r.a.toNat] ++ (if r.x then [] else [r.b.toNat])) → (e.profileL = true → r.x = false) →
      t ≤ 3 → r.c.toNat ≤ 9 → (w = true → r.a.toNat % 2 = 0 ∧ r.b.toNat % 2 = 0) →
      (∀ x ∈ VSrc.vregs w (.v r.a.toNat r.qa) ++ VSrc.vregs w (bSrc r.x r.b r.qb), x < e.team.regs) →
      Free e (VSrc.opnds w (.v r.a.toNat r.qa) ++ VSrc.opnds w (bSrc r.x r.b r.qb)) →
      ∃ u, exec (.vcmp r) s = .next u ∧
        Ran e 1 (predsWritten e r.d.toNat (fun l =>
          [vx l == vy l, vx l != vy l, decide (val (vx l) < val (vy l)), decide (val (vx l) ≤ val (vy l)),
            decide (val (vy l) < val (vx l)), decide (val (vy l) ≤ val (vx l)), decide (vx l < vy l), decide (vx l ≤ vy l),
            decide (vy l < vx l), decide (vy l ≤ vx l)].getD r.c.toNat false) s) u) ∧
    (VecIssuer s e ([r.a.toNat] ++ (if r.x then [] else [r.b.toNat])) → (e.profileL = true → r.x = false) →
      (t = tF32 ∨ t = tF64) → (r.c.toNat ≤ 5 ∨ r.c.toNat = 10 ∨ r.c.toNat = 11) →
      (w = true → r.a.toNat % 2 = 0 ∧ r.b.toNat % 2 = 0) →
      (∀ x ∈ VSrc.vregs w (.v r.a.toNat r.qa) ++ VSrc.vregs w (bSrc r.x r.b r.qb), x < e.team.regs) →
      Free e (VSrc.opnds w (.v r.a.toNat r.qa) ++ VSrc.opnds w (bSrc r.x r.b r.qb)) →
      let fx := fun l => floatVal t (mrFtz e.ctx.mr) (vx l)
      let fy := fun l => floatVal t (mrFtz e.ctx.mr) (vy l)
      let un := fun l => (fx l).isNan || (fy l).isNan
      let quiet := decide (r.c.toNat < 2 ∨ 6 ≤ r.c.toNat)
      let nv := e.active.any (fun l => if quiet then (fx l).isSig || (fy l).isSig else un l)
      ∃ u, exec (.vcmp r) s = .next u ∧
        Ran e 1 (orExc e (if nv then 1 else 0) (predsWritten e r.d.toNat (fun l =>
          [!un l && (fx l).eq (fy l), un l || !(fx l).eq (fy l), !un l && (fx l).lt (fy l), !un l && !(fy l).lt (fx l),
            !un l && (fy l).lt (fx l), !un l && !(fx l).lt (fy l), false, false, false, false, !un l, un l].getD r.c.toNat false) s)) u) ∧
    (VecIssuer s e [] →
      let pa := fun l => e.group.readP a.toNat l
      let pb := fun l => e.group.readP b.toNat l
      ∀ p ∈ ([(.plogAnd d a b, fun l => pa l && pb l), (.plogOr d a b, fun l => pa l || pb l),
          (.plogXor d a b, fun l => pa l != pb l), (.plogAndn d a b, fun l => pa l && !pb l),
          (.plogNot d a, fun l => !pa l), (.plogMov d a, fun l => pa l)] : List (Instr × (Nat → Bool))),
        ∃ u, exec p.1 s = .next u ∧ Ran e 1 (predsWritten e d.toNat p.2 s) u)

/-! ## Vector instructions on floats -/

/-- R236, R239, R209 to R213, R205: FADD, FSUB, FMUL and the four fused forms round the exact result once, element by element, raise
its flags in EXC, and give the default NaN with NV where the operation is invalid; where an element overflows under OVF 3 they trap
with FP_OVERFLOW in the lowest such lane, and nothing is written. -/
def Obligations.FloatRounded : Prop :=
  ∀ (r : RArgs) (q : QArgs) (s : State) (e : Env),
    let t := mrType e.ctx.mr
    let k := roundingOf e.ctx.mr
    let rdn := k.rnd == 2
    let x := fun (y : BitVec 6) (l i : Nat) => floatVal t k.ftz (elem t (e.group.readUnit (wideType t) y.toNat l) i).toNat
    let y := fun (l i : Nat) => floatVal t k.ftz (elem t ((bSrc r.x r.b r.qb).read e (wideType t) l) i).toNat
    let prod := fun (l i : Nat) => (x q.a l i).mul (x q.b l i)
    (VecIssuer s e (rNamed r) → (e.profileL = true → r.x = false) → Typed e (okFloat t) r.d.toNat (rSrcs r) →
      ∀ p ∈ ([(.fadd r, fun l i => (x r.a l i).add rdn (y l i)), (.fsub r, fun l i => (x r.a l i).add rdn (y l i).neg),
          (.fmul r, fun l i => (x r.a l i).mul (y l i))] : List (Instr × (Nat → Nat → Option Val))),
        Rounds p.1 s e t r.d.toNat (fun l i => deliver k t [x r.a l i, y l i] (p.2 l i))) ∧
    (VecIssuer s e (qNamed q) → Typed e (okFloat t) q.d.toNat (qSrcs q) →
      ∀ p ∈ ([(.fma q, fun l i => (prod l i).bind (·.add rdn (x q.c l i))),
          (.fms q, fun l i => (prod l i).bind (·.add rdn (x q.c l i).neg)),
          (.fnma q, fun l i => (prod l i).bind (·.neg.add rdn (x q.c l i))),
          (.fnms q, fun l i => (prod l i).bind (·.neg.add rdn (x q.c l i).neg))] : List (Instr × (Nat → Nat → Option Val))),
        Rounds p.1 s e t q.d.toNat (fun l i => deliver k t [x q.a l i, x q.b l i, x q.c l i] (p.2 l i)))

/-- R236: FABS and FNEG change the sign bit alone and raise nothing; FMIN and FMAX complete with the result of `fminmax`, the model's
function for R236; R237, R238, R30: the other one-source minors and FDIV complete with the result of the model's function for the
rule (fnElem, frndElem, fdivElem), and trap with FP_OVERFLOW where that overflows under OVF 3. Which element within the bound of
R238 a function gives is the model's free value (log 18). -/
def Obligations.FloatOthers : Prop :=
  ∀ (r : UArgs) (q : RArgs) (s : State) (e : Env),
    let t := mrType e.ctx.mr
    let n := elemWidth t
    let k := roundingOf e.ctx.mr
    let raw := fun (l i : Nat) => elem t (e.group.readUnit (wideType t) r.a.toNat l) i
    let x := fun (l i : Nat) => floatVal t k.ftz (elem t (e.group.readUnit (wideType t) q.a.toNat l) i).toNat
    let y := fun (l i : Nat) => floatVal t k.ftz (elem t ((bSrc q.x q.b q.qb).read e (wideType t) l) i).toNat
    (VecIssuer s e [r.d.toNat, r.a.toNat] → Typed e (okFloat t) r.d.toNat [.v r.a.toNat r.qa] →
      (∀ p ∈ ([(.fabs r, fun x => x &&& ~~~(BitVec.twoPow n (n - 1))), (.fneg r, fun x => x ^^^ BitVec.twoPow n (n - 1))] :
          List (Instr × (BitVec n → BitVec n))),
        ∃ u, exec p.1 s = .next u ∧
          Ran e 1 (lanesWritten e (wideType t) r.d.toNat (fun l => unitOf t (fun i => p.2 (raw l i))) s) u) ∧
      ∀ p ∈ ([(.frcp r, fun l i => fnElem fnRcp k t (raw l i).toNat), (.frsq r, fun l i => fnElem fnRsq k t (raw l i).toNat),
            (.fsqrt r, fun l i => fnElem fnSqrt k t (raw l i).toNat), (.fex2 r, fun l i => fnElem fnEx2 k t (raw l i).toNat),
            (.flg2 r, fun l i => fnElem fnLg2 k t (raw l i).toNat),
            (.frnd r, fun l i => frndElem k t [floatVal t k.ftz (raw l i).toNat])] : List (Instr × (Nat → Nat → Res Nat))),
          Rounds p.1 s e t r.d.toNat p.2) ∧
    (VecIssuer s e (rNamed q) → (e.profileL = true → q.x = false) →
      (Typed e (okFloat t) q.d.toNat (rSrcs q) →
        ∀ p ∈ ([(.fmin q, false), (.fmax q, true)] : List (Instr × Bool)),
          Rounds p.1 s e t q.d.toNat (fun l i => fminmax p.2 k t [x l i, y l i])) ∧
      (e.profileL = true → Typed e (okFdiv t) q.d.toNat (rSrcs q) →
        Rounds (.fdiv q) s e t q.d.toNat (fun l i => fdivElem k t [x l i, y l i])))

/-! ## Conversions and modular arithmetic -/

/-- R240, R242: CVT converts every element of its source units to TD; CVTH quantises each block of 16 lanes under the block scale of
sB; both raise the flags of their rounding. The premises are the conditions under which neither traps. R214, R219: BF16 to F32 is
exact, each half over sixteen zero bits, and raises nothing; a block whose one value that is no zero is a power of two takes its
group exponent from it, and its element is half the range, with the sign. -/
def Obligations.Conversions : Prop :=
  ∀ (td z : BitVec 4) (h : Bool) (u : UArgs) (r : SArgs) (s : State) (e : Env),
    let ts := mrType e.ctx.mr
    let n := cvtCount ts td.toNat
    let src := cvtRegs ts n u.a.toNat
    let dst := cvtRegs td.toNat n u.d.toNat
    let scale := ((s.ctx e.ref).readS r.b.toNat).toNat
    let blocks := (List.range 4).filter (fun k => e.active.any (fun l => l / 16 == k))
    (VecIssuer s e (src ++ dst) → zType td.toNat = false → (zType ts && intType td.toNat) = false →
      u.a.toNat % src.length = 0 → u.d.toNat % dst.length = 0 → u.a.toNat ∈ src → u.d.toNat ∈ dst →
      Free e (src.map (fun x => srcV x u.qa) ++ dst.map dstV) →
      ∀ val : Nat → List Nat × Nat, (∀ l ∈ e.active, cvtLane e ts td.toNat n u.a.toNat l = .ok (val l)) →
      ∃ t, exec (.cvt td u) s = .next t ∧
        Ran e 1 (orExc e (e.active.foldl (fun f l => f ||| (val l).2) 0)
          (putVs e (e.active.flatMap (fun l => cvtPut td.toNat n u.d.toNat l (val l).1)) s)) t) ∧
    (VecIssuer s e [r.d.toNat, r.a.toNat] → e.profileL = false → ts = tF32 → scale < 0xFF →
      Free e [srcV r.a.toNat r.qa, srcS r.b.toNat r.qb, dstV r.d.toNat] →
      ∀ val : Nat → ZGroup × Nat,
        (∀ k ∈ blocks, quantiseH (roundingOf e.ctx.mr) z.toNat scale h (blockVals e r.a.toNat k) = .ok (val k)) →
      ∃ t, exec (.cvth h z r) s = .next t ∧
        Ran e 1 (orExc e (blocks.foldl (fun f k => f ||| (val k).2) 0)
          (putVs e (blocks.flatMap (fun k => blockWrites e r.d.toNat scale k (val k).1)) s)) t) ∧
    (VecIssuer s e [u.a.toNat, u.d.toNat, u.d.toNat + 1] → ts = 7 → td.toNat = tF32 → u.d.toNat % 2 = 0 →
      mrFtz e.ctx.mr = false → Free e [srcV u.a.toNat u.qa, dstV u.d.toNat, dstV (u.d.toNat + 1)] →
      let half := fun (i l : Nat) => (e.group.readV u.a.toNat l).extractLsb' (16 * i) 16
      (∀ l ∈ e.active, ∀ i < 2, (half i l).extractLsb' 7 8 ≠ 0xFF) →
      ∃ t, exec (.cvt td u) s = .next t ∧ Ran e 1 (putVs e (e.active.flatMap (fun l =>
        [(u.d.toNat, l, half 0 l ++ 0#16), (u.d.toNat + 1, l, half 1 l ++ 0#16)])) s) t) ∧
    (VecIssuer s e [r.d.toNat, r.a.toNat] → e.profileL = false → ts = tF32 → scale < 0xFF → 10 ≤ z.toNat → z.toNat ≤ 12 →
      h = false → Free e [srcV r.a.toNat r.qa, srcS r.b.toNat r.qb, dstV r.d.toNat] →
      ∀ top : Nat → Nat,
        let m := [2, 4, 7].getD (z.toNat - 10) 0
        let x := fun l => e.group.readV r.a.toNat l
        let exp := fun k => ((x (top k)).extractLsb' 23 8).toNat
        let ge := fun k => exp k + 128 - scale
        (∀ k ∈ blocks, top k ∈ e.active ∧ top k / 16 = k ∧ (x (top k)).extractLsb' 0 23 = 0 ∧ 0 < exp k ∧ exp k < 255 ∧
          scale ≤ exp k + 128 ∧ ge k ≤ 254) →
        (∀ l ∈ e.active, l ≠ top (l / 16) → (x l).extractLsb' 0 31 = 0) →
        ∃ t, exec (.cvth h z r) s = .next t ∧ Ran e 1 (lanesWritten e false r.d.toNat (fun l =>
          scale * 0x1000000 + ge (l / 16) * 0x10000 +
            (if l = top (l / 16) then (if (x l).msb then 2 ^ m else 0) + 2 ^ (m - 1)
            else if l / 2 = top (l / 16) / 2 then 0 else 0x8000)) s) t)

/-- R243 to R245: VMOD on pairs modulo the q of MODQ; a result lies below q. MODQ takes an odd q of 3 to 2^63 − 1. -/
def Obligations.ModularArithmetic : Prop :=
  ∀ (r : RArgs) (u : UArgs) (x : SrcArgs) (s : State) (e : Env), e.profileL = false → isStack e.core = false →
    let q := e.ctx.qmod
    let a := fun l => e.group.readUnit true r.a.toNat l
    let b := fun l => (bSrc r.x r.b r.qb).read e true l
    let d := fun l => e.group.readUnit true r.d.toNat l
    (VecIssuer s e ((rNamed r).flatMap (fun x => [x, x + 1])) → q ≠ 0 →
      (Free e ((rSrcs r).flatMap (VSrc.opnds true) ++ (unitRegs true r.d.toNat).map dstV) →
        ∀ p ∈ ([(.mmul r, fun l => a l * b l % q), (.madd r, fun l => (a l + b l) % q),
            (.msub r, fun l => (((a l : Int) - b l) % q).toNat)] : List (Instr × (Nat → Nat))),
          ∃ t, exec p.1 s = .next t ∧ Ran e 1 (lanesWritten e true r.d.toNat p.2 s) t) ∧
      (Free e ((rSrcs r ++ [VSrc.v r.d.toNat r.qa]).flatMap (VSrc.opnds true) ++ (unitRegs true r.d.toNat).map dstV) →
        ∃ t, exec (.nttb r) s = .next t ∧
          Ran e 1 (putVs e (e.active.flatMap (fun l =>
            unitWrites true r.d.toNat l ((d l + a l * b l) % q) ++
              unitWrites true r.a.toNat l (((d l : Int) - (a l * b l : Nat)) % q).toNat)) s) t)) ∧
    (VecIssuer s e [u.d.toNat, u.d.toNat + 1, u.a.toNat, u.a.toNat + 1] → q ≠ 0 →
      Free e (VSrc.opnds true (VSrc.v u.a.toNat u.qa) ++ (unitRegs true u.d.toNat).map dstV) →
      ∃ t, exec (.mred u) s = .next t ∧
        Ran e 1 (lanesWritten e true u.d.toNat (fun l => e.group.readUnit true u.a.toNat l % q) s) t) ∧
    (Issues s e → e.isGroup = true → Free e [srcS x.a.toNat x.qa, srcS (x.a.toNat + 1) x.qa] →
      let m := e.ctx.readUnit true x.a.toNat
      m % 2 = 1 → 3 ≤ m → m < 2 ^ 63 →
      ∃ t, exec (.modq x) s = .next t ∧ Ran e 1 (putCtx e (fun c => { c with qmod := m }) s) t)

/-! ## Cross-lane instructions -/

/-- R250 to R252, R247: a shuffle reads A of the lane it names in the segment, or of its own lane where that lane is out of range or
not present; votes and BALLOT speak of the active lanes of the segment. -/
def Obligations.ShufflesAndVotes : Prop :=
  ∀ (r : RArgs) (p q : BitVec 3) (d : BitVec 6) (s : State) (e : Env),
    let w := e.seg
    let base := fun (l : Nat) => l / w * w
    let mates := fun (l : Nat) => e.active.filter (fun j => base j == base l)
    let b := fun l => (bSrc r.x r.b r.qb).read e false l
    let from_ := fun (j : Int) (l : Nat) =>
      if 0 ≤ j ∧ j < w ∧ e.group.present.getLsbD (base l + j.toNat) = true then base l + j.toNat else l
    (VecIssuer s e (rNamed r) → (e.profileL = true → r.x = false) →
      Free e ((rSrcs r).flatMap (VSrc.opnds false) ++ [dstV r.d.toNat]) →
      ∀ x ∈ ([(.shfi r, fun l => (b l : Int)), (.shup r, fun l => (l % w : Nat) - (b l : Int)),
          (.shdn r, fun l => (l % w : Nat) + (b l : Int)), (.shxr r, fun l => ((l % w ^^^ b l : Nat) : Int))] :
          List (Instr × (Nat → Int))),
        ∃ t, exec x.1 s = .next t ∧
          Ran e 1 (lanesWritten e false r.d.toNat (fun l => (e.group.readV r.a.toNat (from_ (x.2 l) l)).toNat) s) t) ∧
    (VecIssuer s e [] →
      (∃ t, exec (.vany p q) s = .next t ∧
        Ran e 1 (predsWritten e p.toNat (fun l => (mates l).any (e.group.readP q.toNat)) s) t) ∧
      (∃ t, exec (.vall p q) s = .next t ∧
        Ran e 1 (predsWritten e p.toNat (fun l => (mates l).all (e.group.readP q.toNat)) s) t)) ∧
    (VecIssuer s e [d.toNat, d.toNat + 1] → Free e [dstV d.toNat, dstV (d.toNat + 1)] →
      ∃ t, exec (.ballot d q) s = .next t ∧
        Ran e 1 (lanesWritten e true d.toNat (fun l =>
          (maskOf (((mates l).filter (e.group.readP q.toNat)).map (· % w))).toNat) s) t)

/-- R253 to R255, R221: an integer reduction is the sum, least or greatest element of the active lanes of the segment, whatever the
tree; a scan adds the lanes up to, or below, its own; the float reductions combine by the tree of R221, and trap with FP_OVERFLOW
where a combination overflows under OVF 3. -/
def Obligations.Reductions : Prop :=
  ∀ (r : UArgs) (s : State) (e : Env) (k : Nat), VecIssuer s e [r.d.toNat, r.a.toNat] → e.seg = 2 ^ k →
    let t := mrType e.ctx.mr
    let n := elemWidth t
    let val := fun (x : BitVec n) => if signedType t then x.toInt else (x.toNat : Int)
    let el := fun (i l : Nat) => elem t (e.group.readUnit (wideType t) r.a.toNat l) i
    let mates := fun (l : Nat) => e.active.filter (fun j => j / e.seg == l / e.seg)
    let pick := fun (f : Int → Int → Int) (i l : Nat) =>
      (((mates l).map (fun j => val (el i j))).foldl f (val (el i l)))
    let up := fun (l : Nat) => (mates l).filter (· ≤ l)
    (Typed e (intType t) r.d.toNat [.v r.a.toNat r.qa] →
      ∀ p ∈ ([(.radd r, fun i l => (((mates l).map (fun j => val (el i j))).sum)), (.rmin r, pick min), (.rmax r, pick max)] :
          List (Instr × (Nat → Nat → Int))),
        ∃ u, exec p.1 s = .next u ∧
          Ran e 1 (lanesWritten e (wideType t) r.d.toNat (fun l => unitOf t (fun i => BitVec.ofInt n (p.2 i l))) s) u) ∧
    (Typed e (t ≤ 3) r.d.toNat [.v r.a.toNat r.qa] →
      ∀ p ∈ ([(.scadd r, fun l => (up l)), (.scaddx r, fun l => (up l).filter (· ≠ l))] : List (Instr × (Nat → List Nat))),
        ∃ u, exec p.1 s = .next u ∧
          Ran e 1 (lanesWritten e (wideType t) r.d.toNat (fun l =>
            (BitVec.ofNat n ((p.2 l).map (fun j => (el 0 j).toNat)).sum).toNat) s) u) ∧
    (Typed e (okFloat t) r.d.toNat [.v r.a.toNat r.qa] →
      let m := roundingOf e.ctx.mr
      let pair := fun (a b : Nat) => [floatVal t m.ftz a, floatVal t m.ftz b]
      ∀ p ∈ ([(.fradd r, 0, fun a b => rounded faddVal m t (pair a b)), (.frmin r, infBits t false, fun a b => fminmax false m t (pair a b)),
          (.frmax r, infBits t true, fun a b => fminmax true m t (pair a b))] : List (Instr × Nat × (Nat → Nat → Res Nat))),
        Rounds p.1 s e t r.d.toNat (fun l i => treeReduce p.2.2 k ((List.range e.seg).map (fun j =>
          if e.active.contains (l / e.seg * e.seg + j) then (el i (l / e.seg * e.seg + j)).toNat else p.2.1))))

/-- R256: QAPP in a group of one segment adds the number of active lanes with the predicate to the word at the start of its scratchpad
window, gives those lanes consecutive old values, and every other active lane all ones; the window must be one of scratchpad, aligned,
in the team's extent and under no range lock. A window past the extent traps with PROTECTION, and the add is the lowest selected
lane's write: the model's choices (log 134). -/
def Obligations.QappAppends : Prop :=
  ∀ (d : BitVec 6) (w : BitVec 4) (p : BitVec 3) (s : State) (e : Env), VecIssuer s e [d.toNat] → Free e [dstV d.toNat] →
    let win := e.ctx.window w.toNat
    let hs := spadWord e win.frame
    win.kind = .spad → win.frame % 4 = 0 →
    (e.team.extent < win.frame + 4 → ∃ t, exec (.qapp d w p) s = .next t ∧ Traps e cProtection e.reportLane win.frame e.gang.pc s t) ∧
    (win.frame + 4 ≤ e.team.extent → (homePlaces win.frame hs).any (lockHit s e.core e.team.f .atomic) = false →
    ∀ b, e.segments = [b] →
    let sel := e.active.filter (e.group.readP p.toNat)
    let old := leNat (hs.map (homeByte s))
    ∃ t, exec (.qapp d w p) s = .next t ∧
      Ran e 1 (putVs e (sel.zipIdx.map (fun x => (d.toNat, x.1, BitVec.ofNat 32 (old + x.2))) ++
        (e.active.filter (fun l => !e.group.readP p.toNat l)).map (fun l => (d.toNat, l, BitVec.allOnes 32)))
        (if sel.isEmpty then s else homeWrite (e.writer (sel.headD 0)) (hs.zip (leBytes 4 (old + sel.length))) s)) t)

/-! ## Moves -/

/-- R258 to R260, R160, R38: V2S, S2V, SRD, SWR, P2V, V2P, MRS and MRW. A write of MR checks it: a reserved bit traps with
RESERVED_FIELD, TYPE 15 or RND of 5 to 7 with BAD_MODE, and MR stays; a read of RESL clears it; a read of CLKLO latches the high half
of the same count, which has not gone back (how far it has gone on is the model's free number, log 14); SWR to a register that is only
read traps with PRIV, V2S of a lane that is not there with LANE_RANGE. A reserved field of P2V or V2P that is not zero makes the word
none. -/
def Obligations.MovesBetweenRegisters : Prop :=
  ∀ (r : SArgs) (u : UArgs) (x : SrcArgs) (d n : BitVec 6) (s : State) (e : Env),
    let index := ((s.ctx e.ref).readS r.b.toNat)
    let traps := fun (i : Instr) (c : Nat) => ∃ t, exec i s = .next t ∧ Traps e c e.reportLane 0 e.gang.pc s t
    let mrRefused := fun (i : Instr) (v : Word) =>
      (v.extractLsb' 14 18 ≠ 0 → traps i cReserved) ∧
      (v.extractLsb' 14 18 = 0 → v.extractLsb' 0 4 = 15 ∨ 5 ≤ (v.extractLsb' 4 3).toNat → traps i cBadMode)
    (decodeWords [0x84830000] = .ok (.p2v 6) ∧ decodeWords [0x84A00C00] = .ok (.v2p ⟨6, false⟩) ∧
      ∀ w : Word,
        (w.extractLsb' 21 11 = 0x424 → w.extractLsb' 0 15 ≠ 0 → decodeWords [w] = .error .reservedField) ∧
        (w.extractLsb' 21 11 = 0x425 → (w.extractLsb' 15 6 ≠ 0 ∨ w.extractLsb' 3 6 ≠ 0 ∨ w.extractLsb' 0 2 ≠ 0) →
          decodeWords [w] = .error .reservedField)) ∧
    (Issues s e → e.isGroup = true → e.profileL = false → r.a.toNat < e.team.regs →
      Free e [srcV r.a.toNat r.qa, srcS r.b.toNat r.qb, dstS r.d.toNat] →
      ∀ j, (if index = BitVec.allOnes 32 then e.active.head? = some j
          else j = index.toNat ∧ j < e.g ∧ e.group.present.getLsbD j = true) →
        ∃ t, exec (.v2s r) s = .next t ∧ Ran e 1 (putS e r.d.toNat (e.group.readV r.a.toNat j) s) t) ∧
    (Issues s e → e.isGroup = true → e.profileL = false → r.a.toNat < e.team.regs →
      Free e [srcV r.a.toNat r.qa, srcS r.b.toNat r.qb, dstS r.d.toNat] →
      (index ≠ BitVec.allOnes 32 → e.g ≤ index.toNat ∨ e.group.present.getLsbD index.toNat = false → traps (.v2s r) cLaneRange) ∧
      (index = BitVec.allOnes 32 → e.active = [] → ∃ t, exec (.v2s r) s = .next t ∧ Ran e 1 s t)) ∧
    (VecIssuer s e [u.d.toNat] → e.profileL = false → Free e [srcS u.a.toNat u.qa, dstV u.d.toNat] →
      ∃ t, exec (.s2v u) s = .next t ∧
        Ran e 1 (lanesWritten e false u.d.toNat (fun _ => ((s.ctx e.ref).readS u.a.toNat).toNat) s) t) ∧
    (VecIssuer s e (unitRegs (n.toNat = 16 ∨ n.toNat = 17) d.toNat) → n.toNat ≠ 13 →
      Free e ((unitRegs (n.toNat = 16 ∨ n.toNat = 17) d.toNat).map dstV) →
      ∃ t, exec (.srd d n) s = .next t ∧
        Ran e 1 (lanesWritten e (n.toNat = 16 ∨ n.toNat = 17) d.toNat (specialReg e n.toNat)
          (if n.toNat = 11 ∧ e.team.w16 = false then putGroup e (fun g => { g with resl := 0 }) s else s)) t) ∧
    (VecIssuer s e [d.toNat] → n.toNat = 13 → Free e [dstV d.toNat] →
      ∃ t k, exec (.srd d n) s = .next t ∧ (s.core e.core).clk ≤ k ∧
        Ran e 1 (lanesWritten e false d.toNat (fun _ => k % 2 ^ 32)
          (putCtx e (fun c => { c with clk := BitVec.ofNat 32 (k / 2 ^ 32) }) { s with free := s.free + 1 })) t) ∧
    (VecIssuer s e [x.a.toNat] → Free e [srcV x.a.toNat x.qa] →
      let v := e.group.readV x.a.toNat (e.active.headD 0)
      (n.toNat = 12 → mrRefused (.swr n x) v) ∧
      (n.toNat = 15 → 16 ≤ v.toNat → traps (.swr n x) cReserved) ∧
      (n.toNat ≠ 12 → n.toNat ≠ 15 → traps (.swr n x) cPriv) ∧
      (n.toNat = 12 → mrCause v.toNat = none →
        ∃ t, exec (.swr n x) s = .next t ∧ Ran e 1 (putCtx e (fun c => { c with mr := v }) s) t) ∧
      (n.toNat = 15 → v.toNat < 16 →
        ∃ t, exec (.swr n x) s = .next t ∧ Ran e 1 (putCtx e (fun c => { c with exc := v }) s) t) ∧
      ∃ t, exec (.v2p x) s = .next t ∧
        Ran e 1 (putPs e (e.active.flatMap (fun l =>
          (List.range 8).map (fun k => (k, l, (e.group.readV x.a.toNat l).getLsbD k)))) s) t) ∧
    (VecIssuer s e [d.toNat] → Free e [dstV d.toNat] →
      ∃ t, exec (.p2v d) s = .next t ∧
        Ran e 1 (lanesWritten e false d.toNat (fun l =>
          ((List.range 8).map (fun k => if e.group.readP k l then 2 ^ k else 0)).sum) s) t) ∧
    (Issues s e → e.isScalar = false → e.profileL = false →
      (Free e [dstS d.toNat] → ∃ t, exec (.mrs d) s = .next t ∧ Ran e 1 (putS e d.toNat (s.ctx e.ref).mr s) t) ∧
      (Free e [srcS x.a.toNat x.qa] → mrRefused (.mrw x) ((s.ctx e.ref).readS x.a.toNat)) ∧
      (Free e [srcS x.a.toNat x.qa] → mrCause ((s.ctx e.ref).readS x.a.toNat).toNat = none →
        ∃ t, exec (.mrw x) s = .next t ∧
          Ran e 1 (putCtx e (fun c => { c with mr := (s.ctx e.ref).readS x.a.toNat }) s) t))

/-! ## Control flow -/

/-- R188 to R190, R183, R187: each lane of the gang goes where the instruction sends it, the gang's other lanes go on, and no
register changes; a branch out of its slot traps with SEG_CROSS. In the agent slot and in team-scalar mode the one PC moves. -/
def Obligations.Branches : Prop :=
  ∀ (i : BitVec 26) (r : SrcArgs) (b : BrxArgs) (ts : List Word) (s : State) (e : Env), Issues s e →
    let here := e.gang.pc
    let next := nextPc e 1
    let off := fun (x : BitVec 26) => here + (x.signExtend 32 <<< 2)
    let goes := fun (t : State) (f : Nat → Word) => (∀ l ∈ e.gangLanes, LaneAt t e l (f l)) ∧ OtherGangs s t e ∧ Keeps s t
    let sels := [b.s0, b.s1, b.s2, b.s3].take (b.n.toNat + 1)
    let pick := fun (p : Nat → Bool) =>
      (ts.map (fun w => off (w.extractLsb' 0 26))).getD ((sels.findIdx? (fun x => p x.p.toNat != x.neg)).getD (b.n.toNat + 1)) 0
    (pcSlot (off i) = pcSlot here →
      (e.isGroup = true → ∃ t, exec (.br i) s = .next t ∧ goes t (fun l => if e.laneGuard l then off i else next)) ∧
      (e.isGroup = false → ∃ t, exec (.br i) s = .next t ∧
        t.pcAt e = some (if e.ctxGuard then off i else next) ∧ Keeps s t)) ∧
    (pcSlot (off i) ≠ pcSlot here → ∃ t, exec (.br i) s = .next t ∧ Traps e cSegCross e.reportLane 0 here s t) ∧
    (checkTarget e (off i) = none →
      (e.isGroup = true → ∃ t, exec (.jmpf i) s = .next t ∧ goes t (fun _ => off i)) ∧
      (e.isGroup = false → ∃ t, exec (.jmpf i) s = .next t ∧ t.pcAt e = some (off i) ∧ Keeps s t)) ∧
    (ts.length = b.n.toNat + 2 → ts.length + pcWord here ≤ 1023 → (∀ w ∈ ts, w.extractLsb' 26 6 = 8) →
      (∀ w ∈ ts, pcSlot (off (w.extractLsb' 0 26)) = pcSlot here) →
      (e.isGroup = true → ∃ t, exec (.brx b ts) s = .next t ∧ goes t (fun l => pick (fun p => e.group.readP p l))) ∧
      (e.isGroup = false → ∃ t, exec (.brx b ts) s = .next t ∧ t.pcAt e = some (pick e.ctx.readP) ∧ Keeps s t)) ∧
    (VecIssuer s e [r.a.toNat] → Free e [srcV r.a.toNat r.qa] →
      (∀ l ∈ e.active, checkTarget e (e.group.readV r.a.toNat l) = none) →
      ∃ t, exec (.jmpr r) s = .next t ∧ goes t (fun l => if e.laneGuard l then e.group.readV r.a.toNat l else next))

/-- R198 to R200: CALL pushes, on the stack of each quad of the gang, the return PC with the gang's lanes of the quad, and every lane
goes to the target; RET sends each active lane to the PC of the topmost entry of its quad that holds it, and the lane leaves that
entry. -/
def Obligations.CallsAndReturns : Prop :=
  ∀ (i : BitVec 26) (s : State) (e : Env), Issues s e → e.isGroup = true →
    let tgt := e.gang.pc + (i.signExtend 32 <<< 2)
    let quads := (e.gangLanes.map (· / 4)).eraseDups
    let home := fun (l : Nat) => (e.group.stack (l / 4)).find? (fun r => r.lanes.getLsbD l)
    (pcWord e.gang.pc ≠ 1023 → checkTarget e tgt = none → (∀ q ∈ quads, (e.group.stack q).length < 8) →
      ∃ t, exec (.call i) s = .next t ∧ (∀ l ∈ e.gangLanes, LaneAt t e l tgt) ∧ OtherGangs s t e ∧
        (∀ q, (t.group e.lower e.slot e.gi).stack q =
          if q ∈ quads then { pc := nextPc e 1, lanes := e.gang.lanes &&& (0xF#64 <<< (4 * q)) } :: e.group.stack q
          else e.group.stack q) ∧
        Keeps (putGroup e (fun g => { g with ret := (t.group e.lower e.slot e.gi).ret }) s) t) ∧
    ((∀ l ∈ e.active, ∃ x, home l = some x ∧ checkTarget e x.pc = none) →
      ∃ t, exec .ret s = .next t ∧
        (∀ l ∈ e.gangLanes, LaneAt t e l (if e.laneGuard l then ((home l).map (·.pc)).getD 0 else nextPc e 1)) ∧
        OtherGangs s t e ∧ Keeps (putGroup e (popLanes e.active) s) t)

/-- R191 to R194, R196: TOK sets a join slot with the gang's lanes, in each 16-lane block of a W16 team its own; JOIN parks the
gang, and the last lanes to arrive complete the slot: it is unset and its lanes are one gang at the join PC, which is current (of
several blocks that complete, one with the lowest PC, R183). LEAVE takes the active lanes out of every inner slot and parks them,
and each slot this leaves complete completes. A slot that is unset, whose mask lacks a lane, or that still waits for others traps
with JOIN_UNSET, JOIN_MASK or JOIN_BUSY. That gangs are numbered as they are created is the model's own (Obligations.MemoryKept
keeps it). -/
def Obligations.JoinsReconverge : Prop :=
  ∀ (j : BitVec 3) (i : BitVec 14) (s : State) (e : Env), Issues s e → e.isGroup = true → e.gang.lanes ≠ 0 →
    e.gang.lanes &&& e.group.finished = 0 →
    let numbered := ∀ y ∈ e.group.gangs, y.id < e.group.nextGang
    let tgt := e.gang.pc + (i.signExtend 32 <<< 2)
    let block := fun (b : Nat) => if e.team.w16 then 0xFFFF#64 <<< (16 * b) else if b = 0 then BitVec.allOnes 64 else 0#64
    let mine := fun (b : Nat) => e.gang.lanes &&& block b
    let complete := fun (x : JoinSlot) => x.mask &&& ~~~x.parked &&& ~~~e.group.finished = 0
    let after := fun (t : State) => (t.group e.lower e.slot e.gi)
    let m := maskOf e.active
    let traps := fun (i : Instr) (c : Nat) => ∃ t, exec i s = .next t ∧ Traps e c e.reportLane 0 e.gang.pc s t
    -- the slot's lanes go on as one gang
    let merged := fun (t : State) (k x : JoinSlot) (b : Nat) (now : Prop) => (after t).slot b j.toNat = none ∧
      ∃ y ∈ (after t).gangs, y.lanes = x.parked &&& ~~~e.group.finished ∧ y.pc = k.pc ∧
        (numbered → now → y.id = (after t).current ∧ (after t).streak = 0)
    (pcSlot tgt ≠ pcSlot e.gang.pc → traps (.tok j i) cSegCross) ∧
    (pcSlot tgt = pcSlot e.gang.pc →
      (∀ b < 4, ∀ x, mine b ≠ 0 → e.group.slot b j.toNat = some x → x.mask &&& ~~~e.group.finished &&& ~~~e.gang.lanes ≠ 0 →
        traps (.tok j i) cJoinBusy) ∧
      ((∀ b < 4, ∀ x, mine b ≠ 0 → e.group.slot b j.toNat = some x → x.mask &&& ~~~e.group.finished &&& ~~~e.gang.lanes = 0) →
        ∃ t, exec (.tok j i) s = .next t ∧
          Ran e 1 (putGroup e (fun g => { g with joins := (after t).joins }) s) t ∧
          ∀ b < 4, ∀ q < 8, (after t).slot b q =
            if q = j.toNat ∧ mine b ≠ 0 then some { pc := tgt, mask := mine b } else e.group.slot b q)) ∧
    (∀ b < 4, mine b ≠ 0 → e.group.slot b j.toNat = none → traps (.join j) cJoinUnset ∧ traps (.leave j) cJoinUnset) ∧
    ∀ k : Nat → JoinSlot, (∀ b < 4, mine b ≠ 0 → e.group.slot b j.toNat = some (k b)) →
      (∀ b < 4, mine b &&& ~~~(k b).mask ≠ 0 → traps (.join j) cJoinMask) ∧
      (∀ b < 4, m &&& block b &&& ~~~(k b).mask ≠ 0 → traps (.leave j) cJoinMask) ∧
      ((∀ b < 4, mine b &&& ~~~(k b).mask = 0) →
        let x := fun (b : Nat) => { k b with parked := (k b).parked ||| mine b }
        ∃ t, exec (.join j) s = .next t ∧ SameData s t ∧
          (numbered → (∀ y ∈ e.group.gangs, y.id = e.gang.id → y = e.gang) → ∀ y ∈ (after t).gangs, y.id ≠ e.gang.id) ∧
          ∀ b < 4, mine b ≠ 0 →
            (complete (x b) → merged t (k b) (x b) b
              (∀ a < 4, a ≠ b → mine a ≠ 0 → complete (x a) → (k b).pc.toNat < (k a).pc.toNat)) ∧
            (¬ complete (x b) → (after t).slot b j.toNat = some (x b))) ∧
      (m ≠ 0 → (∀ b < 4, m &&& block b &&& ~~~(k b).mask = 0) →
        let x := fun (b : Nat) => { k b with parked := (k b).parked ||| (m &&& block b) }
        let inner := fun (b q : Nat) (y : JoinSlot) => j.toNat < q ∧ q < 8 ∧ e.group.slot b q = some y
        ∃ t, exec (.leave j) s = .next t ∧ SameData s t ∧
          (∀ l ∈ e.gangLanes, l ∉ e.active → LaneAt t e l (nextPc e 1)) ∧
          ∀ b < 4, m &&& block b ≠ 0 →
            (complete (x b) → merged t (k b) (x b) b (m = e.gang.lanes ∧ e.team.w16 = false ∧
              ∀ q y, inner b q y → y.mask &&& m = 0 ∨ ¬ complete { y with mask := y.mask &&& ~~~m })) ∧
            (¬ complete (x b) → (after t).slot b j.toNat = some (x b)) ∧
            ∀ q y, inner b q y →
              let z := { y with mask := y.mask &&& ~~~m }
              (after t).slot b q = if y.mask &&& m ≠ 0 ∧ complete z then none else some z)

/-- R202, R159, R204, R156: NOP does nothing in any context; YIELD ends the gang's streak; MODE replaces one field of MR, or all of
it, and traps with BAD_MODE, MR unchanged, where that would leave TYPE 15 or RND of 5 to 7;
RCOMMIT of a team under RESTART commits the stores it holds, and of any other team that is not provisional does nothing. -/
def Obligations.SystemWords : Prop :=
  ∀ (d : BitVec 6) (v : BitVec 14) (s : State) (e : Env), Issues s e →
    let field := fun (lo n : Nat) (x : Word) =>
      (e.ctx.mr &&& ~~~(BitVec.ofNat 32 ((2 ^ n - 1) * 2 ^ lo))) ||| (x <<< lo)
    let place := [(0, 4), (4, 3), (7, 2), (9, 1), (10, 4), (0, 32)].getD d.toNat (0, 0)
    let mr := field place.1 place.2 (v.setWidth 32)
    (∃ t, exec .nop s = .next t ∧ Ran e 1 s t) ∧
    (∃ t, exec .yield s = .next t ∧ Ran e 1 s t ∧ (e.isGroup = true → 32 ≤ (t.group e.lower e.slot e.gi).streak)) ∧
    (d.toNat ≤ 5 → v.toNat < 2 ^ place.2 → mr.extractLsb' 0 4 ≠ 15 → (mr.extractLsb' 4 3).toNat ≤ 4 → mr.toNat < 2 ^ 14 →
      ∃ t, exec (.mode d v) s = .next t ∧ Ran e 1 (putCtx e (fun c => { c with mr := mr }) s) t) ∧
    (d.toNat ≤ 5 → v.toNat < 2 ^ place.2 → mr.extractLsb' 0 4 = 15 ∨ 5 ≤ (mr.extractLsb' 4 3).toNat → mr.toNat < 2 ^ 14 →
      ∃ t, exec (.mode d v) s = .next t ∧ Traps e cBadMode e.reportLane 0 e.gang.pc s t) ∧
    (e.isGroup = true → e.team.prov = false →
      (e.team.idem = true → e.team.stall = false →
        ∃ t, exec .rcommit s = .next t ∧
          Ran e 1 (putTeam e (fun t => { t with hamperStall := false }) (commitHamper e.lower e.slot s)) t) ∧
      ((e.team.idem = false ∨ e.team.stall = true) → ∃ t, exec .rcommit s = .next t ∧ Ran e 1 s t))

/-! ## Traps -/

/-- R203, R389, R398, R163, R154: TRAP n and BKPT stop the context when some lane is active, with their cause, the trapping PC and the
next PC as the one to resume at; with no lane active they do nothing. A word that the map leaves unassigned traps with ILLEGAL_MAJOR
or ILLEGAL_MINOR, a target word with TGT, and these resume at themselves. An agent's trap stops the agent. -/
def Obligations.TrapWords : Prop :=
  ∀ (n : BitVec 4) (w : Word) (s : State) (e : Env), Issues s e →
    let on := if e.isGroup then e.active ≠ [] else e.ctxGuard = true
    (∀ p ∈ ([(.trap n, 0x1F0 + n.toNat), (.bkpt, cBreakpoint)] : List (Instr × Nat)),
      (on → ∃ t, exec p.1 s = .next t ∧ Traps e p.2 e.reportLane 0 (nextPc e 1) s t) ∧
      (¬ on → ∃ t, exec p.1 s = .next t ∧ Ran e 1 s t)) ∧
    (∃ t, exec (.tgt w) s = .next t ∧ Traps e cTgt e.reportLane 0 e.gang.pc s t) ∧
    (absentCause e (fM w).toNat 0x1F = none →
      ∃ t, exec (.unassignedEncoding w) s = .next t ∧
        Traps e (if majorAssigned (fM w).toNat then cIllegalMinor else cIllegalMajor) e.reportLane 0 e.gang.pc s t)

/-- R397, R396: the return from a user trap handler by the gang that holds every lane of it restores s56 to s63 from the hidden copy
and MR from s59, clears the frame, and resumes at the PC in s58. -/
def Obligations.HandlerReturn : Prop :=
  ∀ (s : State) (e : Env), Issues s e → e.isGroup = true → e.active.isEmpty = false →
    (e.group.handler.getD 0) &&& e.group.live &&& ~~~e.gang.lanes = 0 → mrCause (e.ctx.readS 59).toNat = none →
    Free e ((span 56 8).map (fun k => dstS k)) →
    let fr := (s.core e.core).frame e.group.ctxNo
    ∃ t, exec .handlerReturn s = .next t ∧ t.pcAt e = some (e.ctx.readS 58) ∧
      (t.group e.lower e.slot e.gi).handler = none ∧
      (∀ k, k < fr.hidden.length → k < 8 → (t.ctx e.ref).readS (56 + k) = fr.hidden.getD k 0) ∧
      (∀ r, r < 56 → (t.ctx e.ref).readS r = e.ctx.readS r) ∧ (t.ctx e.ref).mr = e.ctx.readS 59 ∧
      (t.group e.lower e.slot e.gi).v = e.group.v ∧ (t.group e.lower e.slot e.gi).p = e.group.p ∧ t.mem = s.mem

/-! ## Barriers and fences -/

/-- R379 to R381: ARRIVE by the whole group, not yet arrived, records the phase, and the phase completes when every group with an
unfinished thread has arrived in it; WAITB of a group that has not arrived does nothing, and goes on once the phase is complete; BAR
does both. Before that, WAITB waits. Stated for a team on one core, whose TEAM-scope release and acquire have nothing to do (R382).
-/
def Obligations.Barriers : Prop :=
  ∀ (a : BitVec 3) (s : State) (e : Env), Issues s e → e.isGroup = true → e.team.pair = false →
    let b := a.toNat
    let ph := tget e.team.phase 0 b
    let mark := fun (x : Option Nat) => putGroup e (fun g => { g with arrived := tput g.arrived b x })
    let groups := fun (u : State) => (List.range e.team.ngrp).map (fun i => u.group e.lower e.slot i)
    let arrived := fun (g : Group) => tget g.arrived none b == some ph
    let complete := fun (u : State) =>
      if ((groups u).filter (fun g => g.live != 0)).all arrived && (groups u).any arrived
      then putTeam e (fun t => { t with phase := tput t.phase b (ph + 1) }) u else u
    let whole := e.group.live &&& ~~~e.gang.lanes = 0
    (whole → tget e.group.arrived none b ≠ some ph →
      (∃ t, exec (.arrive a) s = .next t ∧ Ran e 1 (complete (mark (some ph) s)) t) ∧
      (e.gang.progress.started = false →
        (tget ((complete (mark (some ph) s)).team e.lower e.slot).phase 0 b = ph + 1 →
          ∃ t, exec (.bar a) s = .next t ∧ Ran e 1 (mark none (complete (mark (some ph) s))) t) ∧
        (tget ((complete (mark (some ph) s)).team e.lower e.slot).phase 0 b = ph →
          ∃ t, exec (.bar a) s = .next t ∧ Waits (complete (mark (some ph) s)) t))) ∧
    (tget e.group.arrived none b = none → ∃ t, exec (.waitb a) s = .next t ∧ Ran e 1 s t) ∧
    (∀ q, tget e.group.arrived none b = some q →
      (q < ph → ∃ t, exec (.waitb a) s = .next t ∧ Ran e 1 (mark none s) t) ∧
      (ph ≤ q → ∃ t, exec (.waitb a) s = .next t ∧ Waits s t)) ∧
    (¬ whole → e.gang.progress.started = false →
      ∀ i ∈ ([.arrive a, .bar a] : List Instr), ∃ t, exec i s = .next t ∧ Traps e cBarSplit e.reportLane 0 e.gang.pc s t)

/-- R378, R382, R386: a FENCE whose stores are all acknowledged completes: a release writes back what its scope asks and counts for
the context, an acquire pulls and drops what its scope asks and forgets the lines read; with stores of the party outstanding a
release at DOMAIN or SYSTEM waits, and a provisional team's release beyond its core waits. After a release at DOMAIN or SYSTEM the
core's L1 holds no dirty byte of the function, after an acquire at CLUSTER or wider no clean one. How a release and an acquire move
lines is the model's reading (logs 26 to 28). -/
def Obligations.FenceCompletesOrWaits : Prop :=
  ∀ (scope sem : BitVec 6) (s : State) (e : Env), Issues s e →
    let sc := scope.toNat
    let rel := sem.getLsbD 1
    let acq := sem.getLsbD 0
    let free := fun (u : State) => u.outStores.any (fun o => o.core == e.core && o.team == e.party)
    let out := if rel then releaseLines e sc (if 2 ≤ sc then endRestart e s else s) else s
    let noted := if rel then putCtx e (fun c => { c with fenced := max c.fenced (sc + 1) }) out else out
    let mine := fun (t : State) (ok : Bool → Prop) => ∀ x ∈ (t.core e.core).l1, ∀ b, x.2 = some b → b.f = e.team.f → ok b.dirty
    (rel = true → 2 ≤ sc → e.team.prov = true → ∃ t, exec (.fence scope sem) s = .next t ∧ Waits s t) ∧
    ((rel = false ∨ sc < 2 ∨ e.team.prov = false) →
      (rel = true → 4 ≤ sc → free out = true → ∃ t, exec (.fence scope sem) s = .next t ∧ Waits out t) ∧
      ((rel = false ∨ sc < 4 ∨ (free out = false ∧ e.team.remoteFail = false)) →
        ∃ t, exec (.fence scope sem) s = .next t ∧
          Ran e 1 (if acq then putCtx e (leaveCollected sc) (acquireLines e sc e.ctx.collected noted) else noted) t ∧
          (e.isAgent = false → rel = true → 4 ≤ sc → mine t (· = false)) ∧
          (e.isAgent = false → acq = true → 2 ≤ sc → mine t (· = true))))

/-! ## Memory -/

/-- R289 to R295, R173: a load whose every active lane can reach its bytes (located, under no lock, translated, readable) makes its
registers pending with the loaded words on their way; GROUP loads do so block by block. It changes no byte of memory, but that a
full L1 may give a dirty line up to make room (R1, R382). A word loaded through a scratchpad window is the little-endian word at the
window's address, lane by lane (R3, R264). That the values are read at issue and arrive in a later step is the model's choice
(log 13), and so is the home that stands for a team's scratchpad (log 41). -/
def Obligations.LoadsSendWords : Prop :=
  ∀ (r : MemArgs) (s : State) (e : Env),
    let w := e.ctx.window r.w.toNat
    let sz := r.sz.toNat
    let off := r.off.toInt * szBytes sz
    let regs := span r.d.toNat (szRegs sz)
    (∀ vals u, VecIssuer s e (regs ++ addendReg r.a) → sz < 7 → Free e (addendOpnd srcV r.a ++ regs.map dstV) →
      w.kind ∈ kindsV →
      tryEach (fun l s => loadAccess e w (addendV e r.a l) off sz (some l) s) e.active s = (.ok vals, u) →
      ∃ t, exec (.ld r) s = .next t ∧ (L1Clean s e.core → SameBytes s t) ∧
        Ran e 1 (sendResult e.ref false regs (loadWrites r.d.toNat (e.active.zip vals)) u) t) ∧
    (∀ vals u, VecIssuer s e ([r.d.toNat] ++ addendReg r.a) → sz = 7 → zType (mrType e.ctx.mr) = true →
      Free e (addendOpnd srcV r.a ++ [dstV r.d.toNat]) → w.kind ∈ kindsGroup →
      tryEach (loadRecord e w r (mrType e.ctx.mr)) (laneBlocks e) s = (.ok vals, u) →
      ∃ t, exec (.ld r) s = .next t ∧ (L1Clean s e.core → SameBytes s t) ∧
        Ran e 1 (sendResult e.ref false [r.d.toNat] (loadWrites r.d.toNat vals.flatten) u) t) ∧
    (∀ ws u, Issues s e → e.profileL = false → sz < 7 → Free e (addendOpnd srcS r.a ++ regs.map dstS) → w.kind ∈ kindsS →
      loadAccess e w (addendS e r.a) off sz none s = (.ok ws, u) →
      ∃ t, exec (.sld r) s = .next t ∧ (e.isAgent = false → L1Clean s e.core → SameBytes s t) ∧
        Ran e 1 (sendResult e.ref true regs (regs.zip ws) u) t) ∧
    (e.isAgent = false → e.team.pair = false → sz = 4 → w.kind = .spad → e.team.spad + e.team.scratch ≤ 0x1000000 →
      (s.core e.lower).locks = [] → L1Clean s e.core →
      let at_ := fun (o : Int) => 0 ≤ o ∧ o + 4 ≤ e.team.scratch ∧ o % 4 = 0
      let byte := fun (o : Int) (k : Nat) => homeByte s (hSpad e.lower (e.team.spad + o.toNat) + k)
      let word := fun (o : Int) => byte o 3 ++ byte o 2 ++ byte o 1 ++ byte o 0
      let sends := fun (i : Instr) (sc : Bool) (writes : List (Nat × Word)) =>
        ∃ t, exec i s = .next t ∧ t.pcAt e = some (nextPc e 1) ∧ SameBytes s t ∧
          ∃ y ∈ (t.ctx e.ref).results, y.scalar = sc ∧ y.regs = regs ∧ y.writes = writes
      (VecIssuer s e (regs ++ addendReg r.a) → Free e (addendOpnd srcV r.a ++ regs.map dstV) →
        let o := fun (l : Nat) => (w.frame : Int) + addendV e r.a l + off
        (∀ l ∈ e.active, at_ (o l)) → sends (.ld r) false (e.active.map (fun l => (vKey r.d.toNat l, word (o l))))) ∧
      (Issues s e → e.profileL = false → Free e (addendOpnd srcS r.a ++ regs.map dstS) →
        let o := (w.frame : Int) + addendS e r.a + off
        at_ o → sends (.sld r) true [(r.d.toNat, word o)]))

/-- R3, R264, R289 to R295, R173: a store whose every active lane can reach its bytes, and which need not stall, is made; with a
scratchpad window no byte changes but those at the addresses located. A word stored by SST through a scratchpad window stands
little-endian at the window's address, in the scratchpad of the team's core, and every other byte and register is as it was. The
home that stands for a team's scratchpad is the model's numbering (log 41). -/
def Obligations.StoresAtAddresses : Prop :=
  ∀ (r : MemArgs) (s : State) (e : Env),
    let w := e.ctx.window r.w.toNat
    let sz := r.sz.toNat
    let off := r.off.toInt * szBytes sz
    let regs := span r.d.toNat (szRegs sz)
    let made := fun (i : Instr) (xs : List Pending) (u : State) =>
      storeStalls e w xs u = false →
        ∃ t, exec i s = .next t ∧ Ran e 1 (performStores e w xs u) t ∧
          (w.kind = .spad → BytesOutside ((xs.flatMap (·.cells)).map (·.1.h)) s t)
    (∀ xs u, VecIssuer s e (regs ++ addendReg r.a) → sz < 7 → Free e (addendOpnd srcV r.a ++ regs.map (fun x => srcV x)) →
      w.kind ∈ kindsV →
      tryEach (fun l s => storeAccess e w (addendV e r.a l) off sz (some l)
        (storeBytes sz (regs.map (fun x => e.group.readV x l))) s) e.active s = (.ok xs, u) → made (.st r) xs u) ∧
    (∀ xs u, VecIssuer s e ([r.d.toNat] ++ addendReg r.a) → sz = 7 → zType (mrType e.ctx.mr) = true →
      Free e (addendOpnd srcV r.a ++ [srcV r.d.toNat]) → w.kind ∈ kindsGroup →
      tryEach (storeRecord e w r (mrType e.ctx.mr)) (laneBlocks e) s = (.ok xs, u) → made (.st r) xs u) ∧
    (∀ x u, Issues s e → e.profileL = false → sz < 7 → Free e (addendOpnd srcS r.a ++ regs.map (fun x => srcS x)) → w.kind ∈ kindsS →
      storeAccess e w (addendS e r.a) off sz none (storeBytes sz (regs.map e.ctx.readS)) s = (.ok x, u) →
      made (.sst r) [x] u) ∧
    (Issues s e → MemoryOk s → e.isAgent = false → e.profileL = false → e.team.pair = false → e.team.prov = false →
      sz = 4 → r.a.toNat = 63 → Free e [srcS r.d.toNat] →
      let o := (w.frame : Int) + off
      w.kind = .spad → 0 ≤ o → o + 4 ≤ e.team.scratch → o % 4 = 0 → e.team.spad + e.team.scratch ≤ 0x1000000 →
      (s.core e.lower).locks = [] →
      let base := hSpad e.lower (e.team.spad + o.toNat)
      ∃ t, exec (.sst r) s = .next t ∧ t.pcAt e = some (nextPc e 1) ∧
        (∀ k < 4, homeByte t (base + k) = (e.ctx.readS r.d.toNat).extractLsb' (8 * k) 8) ∧
        (∀ h, h < base ∨ base + 4 ≤ h → homeByte t h = homeByte s h) ∧ ∀ c, (t.ctx c).s = (s.ctx c).s)

/-- R173: RESULT_WRITE writes the registers of the result that arrives, which become full and are no longer pending; every other
register, lane, predicate, window and mode, and everything else in the machine, is as it was. That results arrive in a step of their
own is the model's choice (log 13). -/
def Obligations.ResultWrite : Prop :=
  ∀ (ref : CtxRef) (n : Nat) (x : Result) (s : State), (s.ctx ref).results.find? (fun y => y.seq == n) = some x →
    let i := Instr.resultWrite ref n
    let c := { s.ctx ref with results := (s.ctx ref).results.filter (fun y => y.seq != n) }
    let last := fun (k : Nat) (old : Word) => ((x.writes.filter (fun y => y.1 == k)).getLast?.map (·.2)).getD old
    ((∀ y ∈ c.results, y.scalar = x.scalar → ∀ k ∈ y.regs, k ∉ x.regs) → ∀ k ∈ x.regs, c.pending x.scalar k = false) ∧
    (x.scalar = true → ∃ d : Ctx, Becomes i s (s.setCtx ref d) ∧ { d with s := c.s, sEmpty := c.sEmpty } = c ∧
      ∀ k, d.readS k = last k (c.readS k) ∧
        d.sEmpty.contains k = (c.sEmpty.contains k && x.writes.all (fun y => y.1 != k))) ∧
    (x.scalar = false → (∀ co sl g, ref ≠ .group co sl g) → Becomes i s (s.setCtx ref c)) ∧
    ∀ co sl g, ref = .group co sl g → x.scalar = false →
      let old := s.group co sl g
      ∃ h : Group, Becomes i s (s.setGroup co sl g h) ∧ { h with v := old.v, ctx := { h.ctx with vEmpty := c.vEmpty } } = { old with ctx := c } ∧
        (∀ r l, r < 64 → h.readV r l = last (vKey r l) (old.readV r l)) ∧
        ∀ r, h.ctx.vEmpty.contains r = (c.vEmpty.contains r && x.writes.all (fun y => y.1 % 64 != r))

/-- R297, R298: LDFE waits until every granule it reads is full; then it loads, and LDFE_CLEAR also leaves the granules empty. The
values are read at issue (log 13, the model's choice). -/
def Obligations.FullEmptyLoads : Prop :=
  ∀ (r : LdfeArgs) (s : State) (e : Env) (places : List (List Place)) (u : State),
    let sz := r.sz.toNat + 4
    let regs := span r.d.toNat (szRegs sz)
    let w := e.ctx.window r.w.toNat
    let gs := granulesOf (places.flatten.map (·.h))
    let vals := places.map (fun ps => loadWords sz (ps.map (fun p => homeByte u p.h)))
    VecIssuer s e (regs ++ addendReg r.a) → Free e (addendOpnd srcV r.a ++ regs.map dstV) → w.kind ∈ kindsLdfe →
    tryEach (ldfeLocate e w r sz) e.active s = (.ok places, u) →
    (gs.all (granuleFull u) = true →
      (∃ t, exec (.ldfe r) s = .next t ∧
        Ran e 1 (sendResult e.ref false regs (loadWrites r.d.toNat (e.active.zip vals)) u) t) ∧
      (∃ t, exec (.ldfeClear r) s = .next t ∧
        Ran e 1 (sendResult e.ref false regs (loadWrites r.d.toNat (e.active.zip vals)) (emptyGranules gs u)) t ∧
        ∀ g ∈ gs, granuleFull t g = false)) ∧
    (gs.all (granuleFull u) = false →
      ∀ i ∈ ([.ldfe r, .ldfeClear r] : List Instr), ∃ t, exec i s = .next t ∧ Waits u t)

/-- R299 to R304: an atomic whose every lane can reach its location performs the lanes in ascending order, each seeing the results
of those below it, and sends the old values (STRL none); a provisional team's atomic waits. Lanes on one scratchpad word: each finds
what the lanes below it left, and the word ends as the last of them leaves it; LR gives each lane its reservation, and of lanes that
hold one SC writes for the first alone, whose write loses the others theirs (R303). What an atomic that changes no bit counts as is
the model's reading (log 22); the values are sent at issue (log 13). -/
def Obligations.AtomicsInLaneOrder : Prop :=
  ∀ (r : AtomArgs) (s : State) (e : Env), ∀ p ∈ atomics r,
    let op := p.1
    let w := e.ctx.window r.w.toNat
    let regs := atomOperand op r
    let dest := span r.d.toNat (atomWords r)
    let finished := fun (xs : List AtomAccess) (u : State) (send : List (Nat × List Word) → State → State) =>
      let u0 := if w.kind = .global ∨ w.kind = .priv then endRestart e u else u
      let v := if isRelease op r e = true then releaseLines e r.sc.toNat u0 else u0
      (e.team.prov = true → ∃ t, exec p.2 s = .next t ∧ Waits u t) ∧
      (e.team.prov = false → (isRelease op r e = true → releaseWaits e r.sc.toNat v = false ∧
          (4 ≤ r.sc.toNat → e.team.remoteFail = false)) →
        let res := atomLanes op r e xs v
        ∃ t, exec p.2 s = .next t ∧ Ran e 1 (if op = aStrl then res.2 else send res.1 res.2) t)
    (∀ xs u, atomScalarData r = false → VecIssuer s e (regs ++ addendReg r.a) →
      Free e (addendOpnd srcV r.a ++ regs.map (fun x => srcV x)) → w.kind ∈ kindsV →
      tryEach (fun l s => atomLocate op r e w (addendV e r.a l) l (regs.map (fun x => e.group.readV x l)) s) e.active s = (.ok xs, u) →
      finished xs u (fun vs => sendResult e.ref false dest (loadWrites r.d.toNat vs))) ∧
    (∀ x u, atomScalarData r = true → Issues s e → e.profileL = false →
      Free e (addendOpnd srcS r.a ++ regs.map (fun x => srcS x)) → w.kind ∈ kindsS →
      atomLocate op r e w (addendS e r.a) scalarLane (regs.map e.ctx.readS) s = (.ok x, u) →
      finished [x] u (fun vs => sendResult e.ref true dest (dest.zip ((vs.headD (0, [])).2)))) ∧
    (MemoryOk s → e.team.pair = false → e.team.prov = false → r.sz.toNat = 0 → r.a.toNat = 63 → w.kind = .spad →
      w.frame + 4 ≤ e.team.scratch → w.frame % 4 = 0 → r.sc.toNat < 2 → e.team.spad + e.team.scratch ≤ 0x1000000 →
      (s.core e.lower).locks = [] → e.lower < 640 → e.slot < 16 → e.gi < 128 →
      VecIssuer s e regs → Free e (regs.map (fun x => srcV x)) →
      let base := hSpad e.lower (e.team.spad + w.frame)
      let byte := fun (u : State) (k : Nat) => homeByte u (base + k)
      let word := fun (u : State) => byte u 3 ++ byte u 2 ++ byte u 1 ++ byte u 0
      let x := fun (l : Nat) => e.group.readV r.d.toNat l
      let y := fun (l : Nat) => e.group.readV (r.d.toNat + 1) l
      let line : Option Reservation := some { line := base / 64 }
      let held := fun (u : State) (l : Nat) => tget (u.group e.lower e.slot e.gi).reserv none l
      let rest := fun (t : State) => t.pcAt e = some (nextPc e 1) ∧ ∀ h, h < base ∨ base + 4 ≤ h → homeByte t h = homeByte s h
      let answers := fun (t : State) (f : Nat → Word) => ∃ z ∈ (t.ctx e.ref).results, z.scalar = false ∧
        z.writes = e.active.map (fun l => (vKey r.d.toNat l, f l))
      let after := fun (f : Nat → Word → Word) (ls : List Nat) => ls.foldl (fun m l => f l m) (word s)
      (∀ f, (op, f) ∈ ([
          (0, fun l m => m + x l), (1, fun l m => if m.sle (x l) then m else x l), (2, fun l m => if m.sle (x l) then x l else m),
          (3, fun l m => if m.ule (x l) then m else x l), (4, fun l m => if m.ule (x l) then x l else m),
          (5, fun l m => m &&& x l), (6, fun l m => m ||| x l), (7, fun l m => m ^^^ x l), (8, fun l _ => x l),
          (9, fun l m => if m = x l then y l else m),
          (10, fun l m => BitVec.ofNat 32 (resVal (deliver { rnd := 0, ovf := 1, ftz := false } tF32 []
            ((floatVal tF32 false m.toNat).add false (floatVal tF32 false (x l).toNat))))),
          (13, fun _ m => m)] : List (Nat × (Nat → Word → Word))) →
        ∃ t, exec p.2 s = .next t ∧ rest t ∧ word t = after f e.active ∧ answers t (fun l => after f (e.active.filter (· < l)))) ∧
      (op = aLr → ∃ t, exec p.2 s = .next t ∧ rest t ∧ word t = word s ∧ answers t (fun _ => word s) ∧
        ∀ l ∈ e.active, held t l = line) ∧
      (op = aSc →
        let first := e.active.find? (fun l => held s l == line)
        ∃ t, exec p.2 s = .next t ∧ rest t ∧ word t = (first.map x).getD (word s) ∧
          answers t (fun l => if first = some l then 0 else 1) ∧ ∀ l ∈ e.active, held t l = none) ∧
      (op = aStrl → ∃ t, exec p.2 s = .next t ∧ rest t ∧ word t = after (fun l _ => x l) e.active ∧
        (t.ctx e.ref).results = (s.ctx e.ref).results))

/-- R301 to R304: in scratchpad, at GROUP or TEAM scope, an atomic on a word with scalar data leaves the function of the old word and
the operand there, sends the old word to its register, and changes no other byte; STRL sends nothing. LR sets the reservation of the
team-scalar context, or of every lane of the gang, and SC writes and answers 0 where that stands, else answers 1 (that the lanes of a
gang take part together is the model's reading, log 128). The home that stands for a team's scratchpad is the model's numbering
(log 41). -/
def Obligations.AtomicWordInScratchpad : Prop :=
  ∀ (r : AtomArgs) (s : State) (e : Env), Issues s e → MemoryOk s → e.isAgent = false → e.profileL = false →
    e.team.pair = false → e.team.prov = false → r.sz.toNat = 2 → r.a.toNat = 63 → Free e [srcS r.d.toNat] →
    let w := e.ctx.window r.w.toNat
    w.kind = .spad → w.frame + 4 ≤ e.team.scratch → w.frame % 4 = 0 → r.sc.toNat < 2 →
    e.team.spad + e.team.scratch ≤ 0x1000000 → (s.core e.lower).locks = [] →
    let base := hSpad e.lower (e.team.spad + w.frame)
    let byte := fun (u : State) (k : Nat) => homeByte u (base + k)
    let word := fun (u : State) => byte u 3 ++ byte u 2 ++ byte u 1 ++ byte u 0
    let x := e.ctx.readS r.d.toNat
    let y := e.ctx.readS (r.d.toNat + 1)
    let old : Word := word s
    let rest := fun (t : State) => t.pcAt e = some (nextPc e 1) ∧ ∀ h, h < base ∨ base + 4 ≤ h → homeByte t h = homeByte s h
    let answers := fun (t : State) (v : Word) => ∃ y ∈ (t.ctx e.ref).results, y.scalar = true ∧ y.writes = [(r.d.toNat, v)]
    let sum := BitVec.ofNat 32 (resVal (deliver { rnd := 0, ovf := 1, ftz := false } tF32 []
      ((floatVal tF32 false old.toNat).add false (floatVal tF32 false x.toNat))))
    let line : Option Reservation := some { line := base / 64 }
    let held := fun (u : State) (v : Option Reservation) =>
      if e.isGroup then ∀ l ∈ e.gangLanes, tget (u.group e.lower e.slot e.gi).reserv none l = v
      else (u.team e.lower e.slot).reservation = v
    (Free e [srcS r.d.toNat, srcS (r.d.toNat + 1)] →
      ∃ t, exec (.atomCas r) s = .next t ∧ rest t ∧ word t = (if old = x then y else old) ∧ answers t old) ∧
    (∃ t, exec (.atomFadd r) s = .next t ∧ rest t ∧ word t = sum ∧ answers t old) ∧
    (∃ t, exec (.atomLr r) s = .next t ∧ rest t ∧ word t = old ∧ answers t old ∧ held t line) ∧
    (held s line → (e.isGroup = true → e.gangLanes ≠ []) →
      ∃ t, exec (.atomSc r) s = .next t ∧ rest t ∧ word t = x ∧ answers t 0 ∧ held t none) ∧
    (¬ held s line → ∃ t, exec (.atomSc r) s = .next t ∧ rest t ∧ word t = old ∧ answers t 1 ∧ held t none) ∧
    (∃ t, exec (.atomStrl r) s = .next t ∧ rest t ∧ word t = x ∧ (t.ctx e.ref).results = (s.ctx e.ref).results) ∧
    ∀ p ∈ ([(.atomAdd r, old + x), (.atomMin r, if old.sle x then old else x), (.atomMax r, if old.sle x then x else old),
        (.atomMinu r, if old.ule x then old else x), (.atomMaxu r, if old.ule x then x else old), (.atomAnd r, old &&& x),
        (.atomOr r, old ||| x), (.atomXor r, old ^^^ x), (.atomSwap r, x), (.atomLdaq r, old)] : List (Instr × Word)),
      ∃ t, exec p.1 s = .next t ∧ word t = p.2 ∧ (∀ h, h < base ∨ base + 4 ≤ h → homeByte t h = homeByte s h) ∧
        ∃ y ∈ (t.ctx e.ref).results, y.scalar = true ∧ y.writes = [(r.d.toNat, old)]

/-! ## Windows, instruction memory and the copy engine -/

/-- R266, R267: WIN sets a window register: a physical window in the agent slot; a global window of a 56-bit frame, a scratchpad
window inside the team's extent, a cluster window on a core that has one, and a private window below 64 KiB, elsewhere. That WIN
keeps the frame and leaves the limit to the first access is the model's reading (log 30). -/
def Obligations.WinSetsWindow : Prop :=
  ∀ (d : BitVec 4) (a : BitVec 6) (s : State) (e : Env), Issues s e → e.profileL = false →
    Free e [srcS a.toNat, srcS (a.toNat + 1)] →
    let lo := (e.ctx.readS a.toNat).toNat
    let hi := (e.ctx.readS (a.toNat + 1)).toNat
    let sets := fun (k : BitVec 2) (ok : Window → Prop) =>
      ∃ w t, exec (.win d a k) s = .next t ∧ ok w ∧ Ran e 1 (putCtx e (fun c => c.setWindow d.toNat w) s) t
    (e.isAgent = true → sets 0 (· = { kind := .physical, frame := lo + hi * 2 ^ 32 })) ∧
    (e.isAgent = false →
      sets 0 (fun w => w.kind = .global ∧ w.frame = lo + hi % 2 ^ 24 * 2 ^ 32) ∧
      (hi = 0 → lo < e.team.extent → sets 1 (· = { kind := .spad, frame := lo })) ∧
      (isStack e.core = false → hi ≤ 0x7FFFFFFF → sets 2 (· = { kind := .cluster, team := hi, frame := lo })) ∧
      (hi = 0 → lo < 0x10000 → sets 3 (· = { kind := .priv, frame := lo })))

/-- R136, R133: CFETCH of an aligned, translated segment into a slot no path stands in begins its copy, and CFETCH with wait then
waits until the slot has landed; CLAND of a landed slot goes on, of one landing waits, of a failed one traps with its cause, of an
unbound one with SEG_ABSENT. R137: when a copy can read its segment, the slot has landed and its 1,024 words stand in instruction
memory. That a copy lands in one later step, and its order against others, is the model's choice (logs 11, 39). -/
def Obligations.CodeFetch : Prop :=
  (∀ (core isl id h : Nat) (o : EngOp) (bs : List Byte) (s u v : State), codeOp s core isl = some (id, o) →
    codeHome core o s = (.ok h, u) → codeBytes core o h u = (.ok bs, v) → (v.team core o.slot).pair = false →
    ∃ t, exec (.landed core isl) s = .next t ∧ (lslot (t.team core o.slot) o.lslot).st = .landed ∧ opOf t core id = none ∧
      ∀ i < 1024, tget (t.core core).imem 0 ((lslot (v.team core o.slot) o.lslot).phys * 1024 + i) =
        BitVec.ofNat 32 (leNat ((bs.drop (4 * i)).take 4))) ∧
  ∀ (d a : BitVec 6) (s : State) (e : Env), Issues s e → e.isAgent = false → e.profileL = false →
    let va := (e.ctx.readS a.toNat).toNat + (e.ctx.readS (a.toNat + 1)).toNat % 2 ^ 24 * 2 ^ 32
    let now := fun (t : State) => lslot (t.team e.lower e.slot) d.toNat
    let slot := lslot e.team d.toNat
    (∀ p u, e.gang.progress.started = false → Free e [srcS a.toNat, srcS (a.toNat + 1)] → va % 4096 = 0 →
      teamHolds s e d.toNat = false → translate e.core e.team.f va .code s = (.ok p, u) →
      (slot.st = .unbound → ∀ c ∈ teamCores e.lower e.team, imemFull u c = false) →
      (∃ t, exec (.cfetch d a) s = .next t ∧ (now t).st = .landing ∧ (now t).source = va ∧
        { instr := .landed e.lower (e.slot * 64 + d.toNat) } ∈ t.agenda ∧ t.pcAt e = some (nextPc e 1)) ∧
      ∃ t, exec (.cfetchWait d a) s = .next t ∧ t.waited = true ∧ (now t).st = .landing ∧ (now t).source = va ∧
        { instr := .landed e.lower (e.slot * 64 + d.toNat) } ∈ t.agenda) ∧
    (e.gang.progress.started = true → slot.st = .landed → ∃ t, exec (.cfetchWait d a) s = .next t ∧ Ran e 1 s t) ∧
    (slot.st = .landed → ∃ t, exec (.cland d) s = .next t ∧ Ran e 1 s t) ∧
    (slot.st = .landing → ∃ t, exec (.cland d) s = .next t ∧ Waits s t) ∧
    (slot.st = .failed → ∃ t, exec (.cland d) s = .next t ∧ Traps e slot.cause e.reportLane slot.source e.gang.pc s t) ∧
    (slot.st = .unbound → ∃ t, exec (.cland d) s = .next t ∧ Traps e cSegAbsent e.reportLane 0 e.gang.pc s t)

/-- R308 to R314, R316: COPY by the producer group, with a valid descriptor, counts its token up, enters its range locks, empties
the granules it is to fill, and its landing is due; a copy of no bytes does nothing. Each landing moves one row and fills the granules
that have all their bytes with it; the completion fills those that no landing filled, and no other, releases the locks and counts
the token down. That a landing moves one row, in ascending order, is the model's
choice (log 32). -/
def Obligations.CopyLandsAndCompletes : Prop :=
  ∀ (r : CopyArgs) (s : State) (e : Env),
    let a := 8 * r.a8.toNat
    let d := (span a 8).map e.ctx.readS
    let src := e.ctx.window (cpSrcw d)
    let dst := e.ctx.window (cpDstw d)
    (WholeGroup s e → e.profileL = false → e.isProducer = true → Free e ((span a 8).map (fun x => srcS x r.qa)) →
      cpReserved d = false → copyKinds src.kind dst.kind = true → (cpPitch d = 0 ∨ cpX0 d ≤ cpPitch d) →
      (cpEmpty d = true → ∃ t, exec (.copy r) s = .next t ∧ Ran e 1 s t) ∧
      (∀ x y, cpEmpty d = false → mkSide s e d src false = some x → mkSide s e d dst true = some y →
        x.bad s = false → y.bad s = false →
        (x.spad && y.spad && x.lower == y.lower && x.slot == y.slot && x.off < y.off + y.len && y.off < x.off + x.len) = false →
        cpMisaligned d src dst = false → (dst.kind = .global → e.team.prov = false) →
        let locks := sideLocks s e x false s.seq ++ sideLocks s e y true s.seq
        locksFit s locks = true → tget e.group.tokens 0 r.d.toNat < 255 → locks.any (lockRefused s) = false →
        ∃ t, exec (.copy r) s = .next t ∧ t.pcAt e = some (nextPc e 1) ∧
          tget (t.group e.lower e.slot e.gi).tokens 0 r.d.toNat = tget e.group.tokens 0 r.d.toNat + 1 ∧
          (∀ k ∈ locks, k.2 ∈ (t.core k.1).locks) ∧ (∀ g ∈ sideGranules s y, granuleFull t g = false) ∧
          (opOf t e.core s.seq).isSome = true ∧ { instr := .copyLanding e.core s.seq } ∈ t.agenda)) ∧
    (∀ core id o p u, opOf s core id = some o → landRow core (rowWords o.desc) { o with stalledAt := none } s = (p, none, u) →
      ∃ t, exec (.copyLanding core id) s = .next t ∧ opOf t core id = some p ∧ t.mem = u.mem ∧
        (∀ c, (t.core c).spad = (u.core c).spad) ∧
        (∀ g ∈ doneGranules u p, g ∉ doneGranules u o → granuleFull t g = true) ∧
        { instr := if p.pos < boxWords o.desc then .copyLanding core id else .copyCompletion core id } ∈ t.agenda) ∧
    -- a row from scratchpad to scratchpad: the bytes of the destination read as those of the source did, and no other byte changes
    (∀ core id o, opOf s core id = some o → MemoryOk s → (opSide o false).spad = true → (opSide o true).spad = true →
      0 < rowWords o.desc → o.pos % rowWords o.desc = 0 →
      let row := span o.pos (rowWords o.desc)
      let read := row.flatMap (opSpadWord s o false)
      let written := row.flatMap (opSpadWord s o true)
      written.Nodup → (∀ h ∈ written, h ∉ read) →
      ∃ t, exec (.copyLanding core id) s = .next t ∧ written.map (homeByte t) = read.map (homeByte s) ∧ BytesOutside written s t) ∧
    (∀ core id o, opOf s core id = some o →
      ∃ t, exec (.copyCompletion core id) s = .next t ∧ opOf t core id = none ∧
        tget (t.group o.lower o.slot o.group).tokens 0 o.token = tget (s.group o.lower o.slot o.group).tokens 0 o.token - 1 ∧
        (∀ c, ∀ k ∈ (t.core c).locks, k.op ≠ id) ∧
        (∀ g ∈ sideGranules s (opSide o true), g ∉ doneGranules s o → granuleFull t g = true) ∧
        (∀ g ∈ doneGranules s o, granuleFull t g = granuleFull s g) ∧
        t.mem = s.mem ∧ ∀ c, (t.core c).spad = (s.core c).spad)

/-- R306, R317: PREF by the producer group counts its token up and is to complete, or, of no bytes, does nothing; its completion, when
every line can be read, counts the token down; WAITC goes on once no named token is outstanding, waits while one is, and reports and
clears the lowest failure. -/
def Obligations.PrefetchAndTokens : Prop :=
  ∀ (r : PrefArgs) (m : BitVec 8) (s : State) (e : Env),
    let w := e.ctx.window r.w.toNat
    let n := ((e.ctx.readS r.b.toNat).extractLsb' 0 31).toNat
    let toks := (List.range 8).filter (fun k => m.getLsbD k)
    (WholeGroup s e → e.profileL = false → e.isProducer = true → w.kind = .global → Free e [srcS r.b.toNat r.qb] →
      (n = 0 → ∃ t, exec (.pref r) s = .next t ∧ Ran e 1 s t) ∧
      (n ≠ 0 → tget e.group.tokens 0 r.d.toNat < 255 →
        ∃ t, exec (.pref r) s = .next t ∧ t.pcAt e = some (nextPc e 1) ∧
          t.mem = (engineFlush e.core e.team.f s).mem ∧
          tget (t.group e.lower e.slot e.gi).tokens 0 r.d.toNat = tget e.group.tokens 0 r.d.toNat + 1 ∧
          { instr := .prefCompletion e.core s.seq } ∈ t.agenda)) ∧
    (∀ core id o p u, opOf s core id = some o → prefRun core (prefLines o - o.pos) { o with stalledAt := none } s = (p, none, u) →
      p.lower = o.lower → p.slot = o.slot → p.group = o.group → p.token = o.token →
      ∃ t, exec (.prefCompletion core id) s = .next t ∧ opOf t core id = none ∧
        tget (t.group o.lower o.slot o.group).tokens 0 o.token = tget (u.group o.lower o.slot o.group).tokens 0 o.token - 1) ∧
    (Issues s e → e.isGroup = true → e.profileL = false → e.isProducer = true →
      ((∀ k ∈ toks, tget e.group.tokens 0 k = 0 ∧ tget e.group.tokenCauses 0 k = 0) →
        ∃ t, exec (.waitc m) s = .next t ∧ Ran e 1 (dropClean e.core (fun _ b => b.f == e.team.f) s) t) ∧
      ((∃ k ∈ toks, tget e.group.tokens 0 k ≠ 0) → ∃ t, exec (.waitc m) s = .next t ∧ Waits s t) ∧
      (∀ k, (∀ j ∈ toks, tget e.group.tokens 0 j = 0) → toks.find? (fun j => tget e.group.tokenCauses 0 j != 0) = some k →
        ∃ t, exec (.waitc m) s = .next t ∧
          Traps e (tget e.group.tokenCauses 0 k) e.reportLane 0 e.gang.pc
            (putGroup e (fun g => { g with tokenCauses := tput g.tokenCauses k 0 }) s) t))

/-! ## Accumulators and widths -/

/-- R326 to R329: AALLOC takes the lowest run of free banks that fits, zeroed, or answers all ones; AFREE by the holder of an
allocation frees it; ADRAIN of one bank or of two claims the bands it reads and owes its result; AZERO zeroes banks; AQUERY reports.
A bank of no allocation of the team traps with ACC_UNALLOC, a band of another group with ACC_BAND; AFREE and AZERO wait for the
commands and drains before them. -/
def Obligations.Accumulators : Prop :=
  ∀ (r : SArgs) (u : UArgs) (x : SrcArgs) (y : Src2Args) (s : State) (e : Env), WholeGroup s e → e.profileL = false →
    isStack e.core = false →
    let val := fun (z : BitVec 6) => (e.ctx.readS z.toNat).toNat
    let key := teamKey e.lower e.slot
    let owned := fun (bs : List Nat) => ownsBanks s e.core key bs = true
    let mine := fun (bs : List Nat) => owned bs ∧ bandTaken s e.core e.gi bs = false
    let traps := fun (i : Instr) (c : Nat) => ∃ t, exec i s = .next t ∧ Traps e c e.reportLane 0 e.gang.pc s t
    (Free e [srcS r.a.toNat r.qa, srcS r.b.toNat r.qb, dstS r.d.toNat] →
      let n := val r.a * val r.b
      let none_ := ∃ t, exec (.aalloc r) s = .next t ∧ Ran e 1 (putS e r.d.toNat (BitVec.allOnes 32) s) t
      ((e.team.header.getLsbD 9 = false ∨ n = 0 ∨ 256 < n) → none_) ∧
      (e.team.header.getLsbD 9 = true → 0 < n → n ≤ 256 →
        (freeRun s e.core n = none → none_) ∧
        ∀ base, freeRun s e.core n = some base →
          ∃ t, exec (.aalloc r) s = .next t ∧
            Ran e 1 (putS e r.d.toNat (BitVec.ofNat 32 base) (takeRun e base (val r.a) (val r.b) s)) t ∧
            ∀ b, base ≤ b → b < base + n → (accBank t e.core b).any (fun a => a.team == key) = true ∧
              ∀ i j, i < 16 → j < 16 → accRead (t.core e.core) b i j = 0)) ∧
    (Free e [srcS x.a.toNat x.qa] →
      (val x.a < 256 → accBank s e.core (val x.a) = none → traps (.afree x) cAccUnalloc) ∧
      (∀ z, val x.a < 256 → accBank s e.core (val x.a) = some z → z.team = key → z.first = val x.a →
        (z.holder ≠ e.gi → traps (.afree x) cAccBand) ∧
        (z.holder = e.gi → earlierOn s e.core s.seq (span (val x.a) z.len) = true →
          ∃ t, exec (.afree x) s = .next t ∧ Waits s t) ∧
        (z.holder = e.gi → earlierOn s e.core s.seq (span (val x.a) z.len) = false →
          ∃ t, exec (.afree x) s = .next t ∧
            Ran e 1 (freeBanks e.core (fun a => a.team == key && a.first == val x.a) s) t))) ∧
    (Free e [srcS r.a.toNat r.qa, srcS r.b.toNat r.qb, dstV r.d.toNat] →
      let wide := bit (val r.b) 8
      let bs := if wide then [val r.a, val r.a + 1] else [val r.a]
      let regs := if wide then [r.d.toNat, r.d.toNat + 1] else [r.d.toNat]
      bits (val r.b) 31 9 = 0 → bits (val r.b) 7 4 = 0 → (wide = true → val r.a % 2 = 0 ∧ r.d.toNat % 2 = 0) →
      (∀ k ∈ regs, k < e.team.regs) →
      (¬ owned bs → traps (.adrain r) cAccUnalloc) ∧
      (owned bs → bandTaken s e.core e.gi bs = true → traps (.adrain r) cAccBand) ∧
      (mine bs → (∀ k ∈ regs, e.ctx.pending false k = false) →
        ∃ t, exec (.adrain r) s = .next t ∧ t.pcAt e = some (nextPc e 1) ∧ t.mem = s.mem ∧
          (∃ w ∈ (t.ctx e.ref).results, w.seq = s.seq ∧ w.scalar = false ∧ w.regs = regs) ∧
          ∀ b ∈ bs, (accBank t e.core b).any (fun a => a.owner == some e.gi) = true)) ∧
    (Free e [srcS y.a.toNat y.qa, srcS y.b.toNat y.qb] →
      let bs := span (val y.a) (val y.b)
      (val y.b = 0 → ∃ t, exec (.azero y) s = .next t ∧ Ran e 1 s t) ∧
      (val y.b ≠ 0 → val y.a + val y.b ≤ 256 →
        (¬ owned bs → traps (.azero y) cAccUnalloc) ∧
        (owned bs → bandTaken s e.core e.gi bs = true → traps (.azero y) cAccBand) ∧
        (mine bs → earlierOn s e.core s.seq bs = true → ∃ t, exec (.azero y) s = .next t ∧ Waits s t) ∧
        (mine bs → earlierOn s e.core s.seq bs = false →
          ∃ t, exec (.azero y) s = .next t ∧ Ran e 1 (zeroBanks e.core bs s) t))) ∧
    (Free e [srcS u.a.toNat u.qa, dstS u.d.toNat] →
      ∃ t, exec (.aquery u) s = .next t ∧ Ran e 1 (putS e u.d.toNat (BitVec.ofNat 32 (aqueryWord s e (val u.a))) s) t)

/-- R118 to R122, R128: SETW in team-scalar mode, with no result on its way and a width granted, forms the team's groups of that
width: enough for every thread, each with the scalar context, the grant in D and one gang at the next PC; with none granted it
waits, and FORMGROUPS serves it when contexts come free. In a team that has its groups, SETW traps with SETW_TWICE. -/
def Obligations.SetWidth : Prop :=
  ∀ (r : SetwArgs) (s : State) (e : Env), Issues s e → e.profileL = false →
    let asked := putTeam e (fun t => { t with setwReq := setwPack r, setwWait := some (t.setwWait.getD s.time) }) s
    (e.isScalar = true → (isStack e.core && r.x && 2 ≤ r.r.toNat) = false → e.ctx.results = [] →
      (∀ G, setwGrant asked e.lower e.slot = some G →
        ∃ t, exec (.setw r) s = .next t ∧ (e.team.pair = false → t.mem = s.mem) ∧
          (t.team e.lower e.slot).status = .running ∧ (t.team e.lower e.slot).g = G ∧
          (t.team e.lower e.slot).ngrp = (e.team.teamsz + G - 1) / G ∧
          ∀ g < (e.team.teamsz + G - 1) / G,
            (t.group e.lower e.slot g).present = presentLanes e.team.teamsz g G ∧
            (t.group e.lower e.slot g).ctx.readS r.d.toNat = BitVec.ofNat 32 G ∧
            (∀ k, k ≠ r.d.toNat → (t.group e.lower e.slot g).ctx.readS k = e.ctx.readS k) ∧
            (t.group e.lower e.slot g).gangs.map (·.pc) = [nextPc e 1]) ∧
      (setwGrant asked e.lower e.slot = none → ∃ t, exec (.setw r) s = .next t ∧ t.waited = true ∧
        (t.team e.lower e.slot).setwWait.isSome = true ∧ SameData s t)) ∧
    (e.isGroup = true → ∃ t, exec (.setw r) s = .next t ∧ Traps e cSetwTwice e.reportLane 0 e.gang.pc s t) ∧
    (∀ core slot G, (s.team core slot).setwWait.isSome = true → (s.team core slot).stopped = false →
      (s.team core slot).killed = false → (s.team core slot).saving = false → setwGrant s core slot = some G →
      ∃ t, exec (.formGroups core slot) s = .next t ∧ (t.team core slot).status = .running ∧ (t.team core slot).g = G ∧
        ∀ g < ((s.team core slot).teamsz + G - 1) / G,
          (t.group core slot g).present = presentLanes (s.team core slot).teamsz g G)

/-! ## The matrix engine and the bank units -/

/-- R330 to R339, R325: MLOOP with a good descriptor and room in the sequencer queues the command with the MR and modulus of its
issue; a command that may start starts, and its next step is due; a step that can be computed enters its tile in the accumulator and
moves the command on; retiring ORs the flags into EXC, records the first failure and removes the command; MWAIT waits for the
command, reports and clears a failure, or goes on. Which flags a command raises is the model's reading (log 21); its steps are steps
of the model (log 11). -/
def Obligations.MatrixCommands : Prop :=
  ∀ (r : MloopArgs) (x : SrcArgs) (s : State) (e : Env),
    let a := 8 * r.a8.toNat
    let id := (e.ctx.readS r.d.toNat).toNat
    let pr := (e.ctx.readS r.b.toNat).toNat
    let d := (span a 8).map e.ctx.readS
    let w := e.ctx.readS x.a.toNat
    (WholeGroup s e → e.profileL = false → isStack e.core = false →
      Free e (srcS r.d.toNat :: (span a 8).map (fun x => srcS x r.qa) ++ [srcS r.b.toNat r.qb]) →
      (∀ c, mloopCause s e id pr d = some c →
        ∃ t, exec (.mloop r) s = .next t ∧ Traps e c e.reportLane 0 e.gang.pc s t) ∧
      (mloopCause s e id pr d = none →
        (32 ≤ (coreCmds s e.core).length → ∃ t, exec (.mloop r) s = .next t ∧ Waits s t) ∧
        ((coreCmds s e.core).length < 32 →
          let c : MCmd := { seq := s.seq, id := id, group := e.gi, core := e.core, desc := d,
                            preds := namedCmds e.team [pr % 2 ^ 16, pr / 2 ^ 16], mr := e.ctx.mr, q := if mcModular d then e.ctx.qmod else 0 }
          ∃ t, exec (.mloop r) s = .next t ∧ Ran e 1 (putTeam e (fun t => { t with cmds := t.cmds ++ [c] }) s) t))) ∧
    (∀ core slot n c, findCmd (s.team core slot) n = some c →
      (mayStart s core slot c = true →
        ∃ t, exec (.commandStart core slot n) s = .next t ∧ findCmd (t.team core slot) n = some { c with started := true } ∧
          cmdDue s.time core slot c ∈ t.agenda ∧ t.mem = s.mem) ∧
      (∀ bank xs f, c.started = true → c.fail = 0 → c.steps < mcMt c.desc * mcNt c.desc * mcK c.desc →
        nextStep s core slot c = (bank, .ok (xs, f)) →
        let c' := { c with steps := c.steps + 1, flags := c.flags ||| f, ops := some (operands s core slot c) }
        ∃ t, exec (.tileStep core slot n) s = .next t ∧ findCmd (t.team core slot) n = some c' ∧
          (t.core c.core).acc = (putTile bank xs (s.core c.core)).acc ∧ cmdDue s.time core slot c' ∈ t.agenda ∧ t.mem = s.mem) ∧
      -- an I8 step adds the exact sum of its 16 products, wrapping (R222, R333, R336)
      (∀ i j, i < 16 → j < 16 → mcType c.desc = 13 → mcModular c.desc = false → c.started = true → c.fail = 0 → c.ops = none →
        c.steps < mcMt c.desc * mcNt c.desc * mcK c.desc →
        let tile := c.steps / mcK c.desc
        let st := c.steps % mcK c.desc
        let byte := fun (o : Nat) => homeByte s (spadHome core (s.team core slot) o)
        let A := fun (e : Nat) => byte (mcA c.desc + (16 * (tile / mcNt c.desc) + i) * mcAstr c.desc + (st * mcAinc c.desc + e))
        let B := fun (e : Nat) => byte (mcB c.desc + (16 * (tile % mcNt c.desc) + j) * mcBstr c.desc + (st * mcBinc c.desc + e))
        let old := if st = 0 ∧ mcInit c.desc = true then 0 else accRead (s.core c.core) (mcAccBase c.desc + tile) i j
        ∃ t, exec (.tileStep core slot n) s = .next t ∧ accRead (t.core c.core) (mcAccBase c.desc + tile) i j =
          old + BitVec.ofInt 32 (((List.range 16).map (fun e => (A e).toInt * (B e).toInt)).sum)) ∧
      (c.started = true →
        ∃ t, exec (.commandRetire core slot n) s = .next t ∧ findCmd (t.team core slot) n = none ∧
          (t.group core slot c.group).ctx.exc = (s.group core slot c.group).ctx.exc ||| BitVec.ofNat 32 c.flags ∧
          (t.group core slot c.group).matrixFail =
            (if (s.group core slot c.group).matrixFail = 0 then c.fail else (s.group core slot c.group).matrixFail) ∧
          t.mem = s.mem)) ∧
    (Issues s e → e.isGroup = true → e.profileL = false → isStack e.core = false → Free e [srcS x.a.toNat x.qa] →
      w.toNat < 2 ^ 16 →
      let busy := if w.toNat = 0xFFFF then e.team.cmds.any (fun c => c.group == e.gi) else (findCmd e.team w.toNat).isSome
      (busy = true → ∃ t, exec (.mwait x) s = .next t ∧ Waits s t) ∧
      (busy = false → e.group.matrixFail = 0 → ∃ t, exec (.mwait x) s = .next t ∧ Ran e 1 s t) ∧
      (busy = false → e.group.matrixFail ≠ 0 → ∃ t, exec (.mwait x) s = .next t ∧
        Traps e e.group.matrixFail e.reportLane 0 e.gang.pc (putGroup e (fun g => { g with matrixFail := 0 }) s) t))

/-- R351 to R356, R368: when the F, A and W slots of a microword have done their part, its control slot moves the unit on: NEXT to
the next word, LOOP into a loop of its count or, come to by CLOSE, on into its body, CLOSE back while the count lasts, HALT to
HALTED, FLAG with its flag set; WAITBC first takes the mailbox. A correction ends the stall; a context switch gives the bank to the
next context that can run. A NaN in the maximum and the restart after a correction are the model's readings (logs 19, 44). -/
def Obligations.MicrowordControl : Prop :=
  ∀ (k : Nat) (m : Micro) (s s2 s3 s4 : State) (u2 u3 u4 : Machine.Unit), s.who = some (.unit k) →
    let c := m.carg.toNat % 4
    let u := s.unit k
    let n := (tget u4.lc 0 c + 0xFFFF) % 0x10000
    let stepped := fun (v : Machine.Unit) =>
      slotF k m { v with cycles := v.cycles + 1, stamp := s.time + 1 }
          { s with banks := tput s.banks (physBank s k) (k + 1), time := s.time + 1 } = (.ok u2, s2) ∧
        slotA k m u2 s2 = (.ok u3, s3) ∧ slotW k m u3 s3 = (.ok u4, s4)
    let becomes := fun (i : Instr) (v : Machine.Unit) => ∃ t, exec i s = .next t ∧ { t.unit k with cycles := 0 } = { v with cycles := 0 }
    let onward := { u4 with pc := u4.pc + 1, byClose := false }
    (stepped u → u4.pc < 255 →
      becomes (.next m) onward ∧
      (u4.byClose = false → tget u4.lcInit 0 c ≠ 0 →
        becomes (.loop m) { onward with lc := tput u4.lc c (tget u4.lcInit 0 c), ls := tput u4.ls c u4.pc }) ∧
      (n = 0 → becomes (.close m) { onward with lc := tput u4.lc c n }) ∧
      (u4.byClose = true → becomes (.loop m) onward) ∧
      (∀ u5 s5, n ≠ 0 → completeAllParts k u4 s4 = (.ok u5, s5) →
        becomes (.close m) { u5 with lc := tput u5.lc c n, pc := tget u5.ls 0 c, byClose := true }) ∧
      (∀ u5 s5, completeAllParts k u4 s4 = (.ok u5, s5) →
        becomes (.halt m) { u5 with run := .halted } ∧
        (u5.pc < 255 → becomes (.flag m) { u5 with flags := u5.flags ||| (1#8 <<< (m.carg.toNat % 8)), pc := u5.pc + 1, byClose := false }))) ∧
    (u.mailFull = true → stepped (takeMail m u) → u4.pc < 255 → becomes (.waitbc m) onward) ∧
    (u.mailFull = false → ∃ t, exec (.waitbc m) s = .next t ∧ t.waited = true ∧ t.unit k = u ∧ t.mem = s.mem) ∧
    (∀ n pa, (s.unit n).stalled = some pa → ∃ t, exec (.correction n) s = .next t ∧ (t.unit n).stalled = none) ∧
    ∀ pb n, (((bankRunners s pb).find? (fun k => tget s.banks 0 pb < k + 1)).orElse (fun _ => (bankRunners s pb).head?)) = some n →
      let now := s.unit (tget s.banks 0 pb - 1)
      (unitHeld s pb = false ∨ now.pendW.isSome = false ∧ now.stalled.isSome = false →
        ∃ t, exec (.contextSwitch pb) s = .next t ∧ tget t.banks 0 pb = n + 1 ∧ t.units = s.units ∧ t.mem = s.mem) ∧
      (unitHeld s pb = true → now.pendW.isSome = true ∨ now.stalled.isSome = true → Becomes (.contextSwitch pb) s s)

/-- R358 to R364: on a stack core, BKLD puts the words of its image in the control store of each idle context of its range, BKRUN
starts each with the parameters of its block for the issuing team, BKWAIT answers the status once every context lets it and clears
the flags it waited for, BKRD sends a result slot, and BKST fills each mailbox with the column of its vector. How a BKST goes on
after a full mailbox is the model's reading (log 45). -/
def Obligations.BankInstructions : Prop :=
  ∀ (r : SArgs) (y : Src2Args) (s : State) (e : Env), WholeGroup s e → e.profileL = false → isStack e.core = true →
    let val := fun (z : BitVec 6) => (e.ctx.readS z.toNat).toNat
    let range := fun (z : BitVec 6) => rangeReserved (val z) = false ∧ rangeBad s e.team.f (val z) = false
    let keys := fun (z : BitVec 6) => unitsOf e (rangeBanks (val z))
    (∀ hd bs st ws, Free e [srcS y.a.toNat y.qa, srcS y.b.toNat y.qb] → range y.a → e.team.prov = false →
      let n := leWord hd 0 2
      spadOperand s e (val y.b) 8 8 = .ok hd → 0 < n → n ≤ 256 → leWord hd 2 1 + n ≤ 256 →
      spadOperand s e (val y.b) (8 + 8 * n) 8 = .ok bs → imageWords bs = some (st, ws) →
      (∀ k ∈ keys y.a, (s.unit k).busy = false) →
      ∃ t, exec (.bkld y) s = .next t ∧ t.pcAt e = some (nextPc e 1) ∧ t.mem = s.mem ∧
        ∀ k ∈ keys y.a, ∀ i < ws.length, tget (t.unit k).store 0 (st + i) = ws.getD i 0) ∧
    (∀ bs, Free e [srcS y.a.toNat y.qa, srcS y.b.toNat y.qb] → range y.a → e.team.prov = false →
      spadOperand s e (val y.b) 64 64 = .ok bs → paramCause s e.team.f bs = none →
      (∀ k ∈ keys y.a, runRefused e (s.unit k) = false) →
      ∃ t, exec (.bkrun y) s = .next t ∧ t.pcAt e = some (nextPc e 1) ∧
        ∀ k ∈ keys y.a, t.unit k = startUnit bs (e.team.record, e.team.idx) (s.unit k)) ∧
    (Free e [srcS r.a.toNat r.qa, srcS r.b.toNat r.qb, dstS r.d.toNat] → range r.a → val r.b < 256 →
      let mask := BitVec.ofNat 8 (val r.b)
      ((∀ k ∈ keys r.a, (s.unit k).released mask = true) →
        ∃ t, exec (.bkwait r) s = .next t ∧ t.pcAt e = some (nextPc e 1) ∧ t.mem = s.mem ∧
          (∀ k ∈ keys r.a, (t.unit k).flags = (s.unit k).flags &&& ~~~mask ∧ (t.unit k).run = (s.unit k).run) ∧
          (t.ctx e.ref).readS r.d.toNat = BitVec.ofNat 32 (waitStatus s e.team.f (rangeBanks (val r.a)) mask)) ∧
      ((∃ k ∈ keys r.a, (s.unit k).released mask = false) → ∃ t, exec (.bkwait r) s = .next t ∧ Waits s t)) ∧
    (Free e [srcS r.a.toNat r.qa, srcS r.b.toNat r.qb, dstV r.d.toNat] → r.d.toNat < e.team.regs → range r.a →
      val r.a < 2 ^ 16 → val r.b < 8 →
      ∃ t, exec (.bkrd r) s = .next t ∧
        Ran e 1 (sendResult e.ref false [r.d.toNat] (e.active.map (fun l =>
          (vKey r.d.toNat l, tget (s.unit (unitKey e.team.f (val r.a % 2 ^ 13))).result 0 (val r.b * 16 + l)))) s) t) ∧
    (Free e [srcS y.a.toNat y.qa, srcV y.b.toNat y.qb] → y.b.toNat < e.team.regs → range y.a → e.team.prov = false →
      e.gang.progress.phase = 0 → (∀ k ∈ keys y.a, (s.unit k).busy = true ∧ (s.unit k).mailFull = false) →
      ∃ t, exec (.bkst y) s = .next t ∧ t.pcAt e = some (nextPc e 1) ∧ t.mem = s.mem ∧
        ∀ k ∈ keys y.a, (t.unit k).mailbox = mailColumn e y.b.toNat ∧ (t.unit k).mailFull = true)


/-! ## Teams, launches and spawns -/

/-- R58, R33, R92: DISP reserves room, releases it, or starts the team of an index, whose context holds the argument block in s0 to
s15 and stands at its entry, and answers the result codes of R58: 4 and 3 before the record is looked at. A team goes on once no
segment of it is landing; a W16 team once a width is granted (R128). Where a team's scratchpad lies is the model's choice (log 41). -/
def Obligations.TeamsStart : Prop :=
  (∀ (r : SysxArgs) (s : State) (e : Env), Issues s e → e.isAgent = true →
    Free e [srcS r.a.toNat, srcS (r.a.toNat + 1), srcS r.b.toNat, dstS r.d.toNat] →
    let f := servedBy s e.core
    let at_ := pairAddr e r.a.toNat
    let x := (e.ctx.readS r.b.toNat).toNat
    let u := agTouch e.core at_ 256 s
    let held := (s.core e.core).held
    let hold := fun (v : Option Reserved) (s : State) => putCore e.core (fun c => { c with held := v }) s
    let answers := fun (i : Instr) (n : Nat) (v : State) => Does i s e (putS e r.d.toNat (word n) v)
    let traps := fun (i : Instr) => ∀ c, agCause s f at_ 256 = some c →
      ∃ t, exec i s = .next t ∧ Traps e c e.reportLane at_ e.gang.pc s t
    (0x80000000 ≤ x → answers (.disp r) 4 s) ∧
    (x < 0x80000000 → (held = none ∨ ∃ v, held = some v ∧ v.record ≠ at_) → answers (.disp r) 3 s) ∧
    (∀ v, x < 0x80000000 → held = some v → v.record = at_ →
      traps (.disp r) ∧
      (agCause s f at_ 256 = none →
        let k := readKernel u f v.object (recKernel u f at_)
        ∃ t, exec (.disp r) s = .next t ∧ t.pcAt e = some (nextPc e 1) ∧ (t.ctx e.ref).readS r.d.toNat = 0 ∧
          (t.core e.core).held = none ∧
          let T := t.team v.lower v.slot
          T.status = .starting ∧ T.f = f ∧ T.record = at_ ∧ T.idx = x ∧ T.teamsz = recTeamsz u f at_ ∧ T.regs = k.regs ∧
            T.ctx.pc = k.landPc k.entry ∧ ∀ i < 16, T.ctx.readS i = word (ag32 u f (at_ + 0x60 + 4 * i)))) ∧
    (held ≠ none → answers (.dispReserve r) 3 s) ∧
    (held = none → traps (.dispReserve r) ∧
      (agCause s f at_ 256 = none →
        (kernelOn u e.core f at_ = none → answers (.dispReserve r) 2 u) ∧
        ∀ k, kernelOn u e.core f at_ = some k →
          (roomFor u e.core f at_ k none = none → answers (.dispReserve r) 1 u) ∧
          ∀ v, roomFor u e.core f at_ k none = some v → answers (.dispReserve r) 0 (hold (some v) u))) ∧
    (held ≠ none → answers (.dispRelease r) 0 (hold none s)) ∧
    (held = none → answers (.dispRelease r) 3 s)) ∧
  ∀ (core slot : Nat) (s : State),
    let T := s.team core slot
    let landing := T.slots.any (fun l => l.2.st == .landing)
    let asks := fun (v : State) =>
      v.setTeam core slot { v.team core slot with status := .starting, setwReq := bits (v.team core slot).header.toNat 2 0,
                                                  setwWait := some v.time }
    let leaves := fun (ok : Team → Prop) => ∃ t, exec (.startTeam core slot) s = .next t ∧ ok (t.team core slot)
    let grouped := fun (v : State) => ∀ G, T.stopped = false → T.killed = false → T.saving = false →
      setwGrant (asks v) core slot = some G → leaves (fun x => x.status = .running ∧ x.g = G)
    (landing = true → Becomes (.startTeam core slot) s s) ∧
    (landing = false → T.status = .resuming →
      (T.w16 = false ∨ T.g ≠ 0 → leaves (· = { T with status := if T.g = 0 then .scalar else .running })) ∧
      (T.w16 = true → T.g = 0 → grouped s)) ∧
    (landing = false → T.status = .starting →
      (T.w16 = false → leaves (· = { T with status := .scalar })) ∧
      (T.w16 = true → grouped (acquireStart core T s)))

/-- R201, R116, R451, R452: EXIT finishes the active lanes and the others go on; with the last thread, or in team-scalar mode, the
team is to end, and no register and no byte changes (on a pair, a group that has finished writes its lines back, R381). A quiet team
that ends by EXIT with a deferred cause stops with a frame of it; otherwise what it holds is free, its slot too unless it stays as
an ended provisional team, its agent's TEAM event is set, and RETIRE is due. A team aborted under RESTART waits to start again. What
stays of an ended provisional team, and under which number its frame stands, is the model's reading (logs 47, 48). -/
def Obligations.TeamsEnd : Prop :=
  (∀ (s : State) (e : Env), Issues s e →
    (e.isGroup = true →
      ∃ t, exec .exit s = .next t ∧ (e.team.pair = false → SameData s t) ∧
        (t.group e.lower e.slot e.gi).finished = e.group.finished ||| maskOf e.active ∧
        (∀ l ∈ e.gangLanes, l ∉ e.active → LaneAt t e l (nextPc e 1)) ∧
        ((∀ i < e.team.ngrp, (t.group e.lower e.slot i).live = 0) →
          (t.team e.lower e.slot).status = .ending ∧ { instr := .teamEnd e.lower e.slot } ∈ t.agenda)) ∧
    (e.isScalar = true → e.ctxGuard = true →
      ∃ t, exec .exit s = .next t ∧ SameData s t ∧ (t.team e.lower e.slot).status = .ending ∧
        { instr := .teamEnd e.lower e.slot } ∈ t.agenda) ∧
    (e.isScalar = true → e.ctxGuard = false → ∃ t, exec .exit s = .next t ∧ Ran e 1 s t)) ∧
  ∀ (core slot : Nat) (s : State),
    let T := s.team core slot
    let x := exitEnv s core slot
    let keeps := T.prov && (T.endKind == .exit || T.endKind == .fail)
    (T.status ≠ .ending ∨ T.endedProv = true → Becomes (.teamEnd core slot) s s) ∧
    (T.status = .ending → T.endedProv = false →
      (∀ c, T.endKind = .exit → deferredCause s core slot = some c →
        ∃ t, exec (.teamEnd core slot) s = .next t ∧ (t.team core slot).stopped = true ∧ (t.team core slot).status = .ending ∧
          ((t.core x.core).frame x.ctxNo).new = true ∧ ((t.core x.core).frame x.ctxNo).cause = c ∧
          agentRtt core x.core T.f 0 x.ctxNo .fail ∈ t.agenda ∧ t.mem = s.mem) ∧
      ((T.endKind = .exit → deferredCause s core slot = none) →
        ∃ t, exec (.teamEnd core slot) s = .next t ∧ retireDue core slot T keeps ∈ t.agenda ∧
          (t.core core).events.getLsbD 1 = true ∧
          (keeps = true → (t.team core slot).endedProv = true ∧ (t.team core slot).ngrp = 0) ∧
          (keeps = false → (t.team core slot).status = .free) ∧
          (T.endKind = .abort → ∃ k ∈ (t.func T.f).restarts, k.record = T.record ∧ k.idx = T.idx ∧ k.priv = T.priv) ∧
          (∀ g < 128, (t.group core slot g).gangs = []) ∧
          -- step 3: the held stores are committed or discarded; step 4: no byte the team stored is dirty any more
          (let held := if keeps then s else if T.endKind = .exit then commitHamper core slot s else dropHamper core slot s
           t.mem = ((teamCores core T).foldl (fun v c => writeBackTeam c (teamKey core slot) v) held).mem) ∧
          (∀ c ∈ teamCores core T,
            (keeps = false → ∀ x ∈ (t.core c).hamper, x.team ≠ teamKey core slot) ∧
            (∀ x ∈ (t.core c).l1, ∀ b, x.2 = some b → b.storedBy (teamKey core slot) = false) ∧
            -- step 5: banks, instruction slots and granules
            (∀ b x, accBank t c b = some x → x.team ≠ teamKey core slot) ∧
            (∀ p, tget (t.core c).imemOwner 0 p ≠ teamKey core slot + 1) ∧
            ∀ g, (if c = core then T.spad else T.spad2) / 16 ≤ g →
              g < ((if c = core then T.spad else T.spad2) + T.scratch + 15) / 16 → granuleFull t (c, g) = true) ∧
          -- and the marks and the private block, which an aborted team keeps
          (∀ x ∈ t.resident, ∀ ms, x.2 = some ms → T.mark ∉ ms) ∧
          (T.endKind ≠ .abort →
            (T.priv + 2 ^ 56 - s.fcsr64 T.f 0x042 % 2 ^ 56) % 2 ^ 56 / 2 ^ 27 ∉ (t.func T.f).privUsed)))

/-- R57, R59, R390, R391, R398, R401: WAITEV, an acquire, waits while its word is as expected and no event is pending; HOSTIRQ sends
its interrupt once the agent's stores are answered, or leaves it pending where its vector is masked; CSRRD and CSRWR reach the
registers that are assigned and writable, and trap elsewhere; a driver's write through BAR 0 has its effect or none; WATCHHI watches
a line; a stopped agent restarts. Unlisted values and registers an agent may not write follow the model's readings (logs 66 to 68).
-/
def Obligations.AgentWords : Prop :=
  (∀ (r : SysxArgs) (d a b : BitVec 6) (s : State) (e : Env), Issues s e → e.isAgent = true →
    let val := fun (z : BitVec 6) => (e.ctx.readS z.toNat).toNat
    let core := s.core e.core
    (Free e [srcS r.a.toNat, srcS (r.a.toNat + 1), srcS r.b.toNat, dstS r.d.toNat] →
      let at_ := pairAddr e r.a.toNat
      let v := acquireSystem (servedBy s e.core) s
      let w := word (leNat (readBytes v.mem at_ 4))
      hTarget at_ = 1 → agentRangeBad s at_ 1 = false → t1Owner s (hAddr at_) = some (servedBy s e.core) → at_ % 4 = 0 →
      ((w ≠ e.ctx.readS r.b.toNat ∨ eventPending v e.core = true) → Does (.waitev r) s e (putS e r.d.toNat w v)) ∧
      (w = e.ctx.readS r.b.toNat → eventPending v e.core = false →
        ∃ t, exec (.waitev r) s = .next t ∧ Waits v t)) ∧
    (Free e [srcS a.toNat] → bits (val a) 7 5 = 0 → bits (val a) 31 16 = 0 →
      let busy := s.outStores.any (fun o => o.core == e.core && o.team == e.party)
      let g := bits (val a) 4 0
      let vec := bits (val a) 15 8
      (busy = false → ∃ t, exec (.hostirq a) s = .next t ∧ Ran e 1 s t ∧
        (vec < (s.func g).msixSize → (s.func g).msixMasked.contains vec = false → t.irqs = s.irqs ++ [(g, vec)]) ∧
        (vec < (s.func g).msixSize → (s.func g).msixMasked.contains vec = true →
          t.irqs = s.irqs ∧ vec ∈ (t.func g).msixPending) ∧
        ((s.func g).msixSize ≤ vec → t.irqs = s.irqs)) ∧
      (busy = true → ∃ t, exec (.hostirq a) s = .next t ∧ Waits s t)) ∧
    (Free e [srcS a.toNat, dstS d.toNat] → bits (val a) 31 24 = 0 → xNum (val a) ≠ 0x07E → xNum (val a) ≠ 0x07F →
      let reads := fun (n : Nat) (v : Word) => xNum (val a) = n → Does (.csrrd d a) s e (putS e d.toNat v s)
      (∀ n v, csrRead s e.core (xFunc (val a)) (xCtx (val a)) n = some v → reads n v) ∧
      reads 0x081 core.stage ∧ reads 0x083 core.events ∧ reads 0x084 core.dbgstop ∧ reads 0x085 core.atimer ∧
      reads 0x0C0 core.watchlo ∧ reads 0x0C1 core.watchhi ∧ reads 0x0C2 core.apoison ∧
      (∀ k < 10, reads (0x088 + k) (frameWord ((s.core (frameSite s e.core (xCtx (val a)))).frame (xCtx (val a))) k)) ∧
      (csrRead s e.core (xFunc (val a)) (xCtx (val a)) (xNum (val a)) = none →
        ∃ t, exec (.csrrd d a) s = .next t ∧ Traps e cReserved e.reportLane 0 e.gang.pc s t)) ∧
    (Free e [srcS a.toNat, srcS b.toNat] → bits (val a) 31 24 = 0 →
      let n := xNum (val a)
      let f := xFunc (val a)
      let v := e.ctx.readS b.toNat
      let barred := csrFixed n || (!coreCsrKnown n && !agentMayWrite s (servedBy s e.core) f n)
      let traps := fun (c : Nat) => ∃ t, exec (.csrwr a b) s = .next t ∧ Traps e c e.reportLane 0 e.gang.pc s t
      (csrRead s e.core f (xCtx (val a)) n = none → traps cReserved) ∧
      ((csrRead s e.core f (xCtx (val a)) n).isSome = true →
        (barred = true → traps cPriv) ∧
        (barred = false → csrReserved n v = true → traps cReserved) ∧
        (barred = false → csrReserved n v = false →
          (∀ u, coreCsrKnown n = true → coreStore e.core (xCtx (val a)) n v s = .ok u → Does (.csrwr a b) s e u) ∧
          (∀ c, coreCsrKnown n = true → coreStore e.core (xCtx (val a)) n v s = .error c → traps c) ∧
          (coreCsrKnown n = false → Does (.csrwr a b) s e (csrStore f n v s)))))) ∧
  (∀ (w f n : Nat) (v : Word) (s : State),
    let may := s.power == .service && hostMayWrite s w f n && !csrReserved n v
    (may = true → Becomes (.csrWrite ⟨w, f⟩ n v) s (csrStore f n v s)) ∧
    (may = false → Becomes (.csrWrite ⟨w, f⟩ n v) s s) ∧
    (may = true → n ∈ [0x042, 0x043, 0x044, 0x045, 0x046, 0x047, 0x060, 0x062, 0x063, 0x064, 0x110, 0x111, 0x112] →
      ∃ t, exec (.csrWrite ⟨w, f⟩ n v) s = .next t ∧ t.fcsr f n = v ∧ t.mem = s.mem ∧ t.cores = s.cores ∧ t.teams = s.teams ∧
        ∀ m, m ≠ n → t.fcsr f m = s.fcsr f m)) ∧
  ∀ (core : Nat) (v : Word) (s : State),
    let pa := (s.core core).watchlo.toNat + v.toNat * 2 ^ 32
    let shared := decide (pa / 2 ^ 48 = 1 ∧ hAddr pa < Config.sharedBytes)
    (shared = true → ∃ t, exec (.watchhi core v) s = .next t ∧ (t.core core).watchhi = v ∧ hAddr pa / 64 ∈ t.watch ∧
      t.mem = s.mem) ∧
    (shared = false → ∃ t, exec (.watchhi core v) s = .next t ∧ (t.core core).agentStopped = true ∧ t.mem = s.mem) ∧
    ((s.core core).agentStopped = true → ∃ t, exec (.agentstop core) s = .next t ∧
      (t.core core).agentStopped = false ∧ (t.core core).ctx = {} ∧ (t.core core).events = 0x7FF ∧
      (t.core core).spad = (s.core core).spad ∧ { instr := .kick (servedBy t core) 0 } ∈ t.agenda ∧ t.mem = s.mem) ∧
    ((s.core core).agentStopped = false → Becomes (.agentstop core) s s)

/-- R278 to R280: a shootdown drops every covered translation and window limit at once and ends when every core has acknowledged; a
core acknowledges once none of its engine operations uses a covered page and none of its stores to a covered page is on its way
outside. -/
def Obligations.Shootdowns : Prop :=
  (∀ (r : SysxArgs) (s : State) (e : Env), Issues s e → e.isAgent = true →
    Free e [srcS r.a.toNat, srcS (r.a.toNat + 1), srcS r.b.toNat, dstS r.d.toNat] →
    let va := (e.ctx.readS r.a.toNat).toNat + bits (e.ctx.readS (r.a.toNat + 1)).toNat 23 0 * 2 ^ 32
    let b := (e.ctx.readS r.b.toNat).toNat
    let p := beginShoot (shootOf (some e.core) (bits b 4 0) va b) s
    (bits b 15 6 ≠ 0 → ∃ t, exec (.tlbinv r) s = .next t ∧ Traps e cReserved e.reportLane 0 e.gang.pc s t) ∧
    (bits b 15 6 = 0 → (bit b 5 = true ∨ va % 65536 = 0) → s.shoots.any (fun k => k.agent == some e.core) = false →
      (p.1.pending = [] → Does (.tlbinv r) s e (putS e r.d.toNat 0 p.2) ∧
        ∀ c, ∀ x ∈ (p.2.core c).tlb, x.f = bits b 4 0 → p.1.covers x.va x.size = false) ∧
      (p.1.pending ≠ [] → ∃ t, exec (.tlbinv r) s = .next t ∧ t.waited = true ∧ p.1 ∈ t.shoots))) ∧
  (∀ (core f : Nat) (k : Shoot) (s : State), k ∈ s.shoots → k.f = f → core ∈ k.pending → coreHolds s k core = false →
    (k.agent ≠ none →
      ∃ t, exec (.shootdownAck core f) s = .next t ∧ { k with pending := k.pending.filter (· != core) } ∈ t.shoots) ∧
    (k.agent = none → s.shoots = [k] → k.started = true → k.pending = [core] →
      ∃ t, exec (.shootdownAck core f) s = .next t ∧ t.shoots = [] ∧ t.fcsr f 0x049 = s.fcsr f 0x049 + 1)) ∧
  ∀ (f : Nat) (v : Word) (s : State),
    let k := shootOf none f (s.fcsr64 f 0x046 % 2 ^ 56 / 65536 * 65536) v.toNat
    ((driverMay s f = false ∨ bits v.toNat 15 6 ≠ 0) → Becomes (.tinvctl f v) s s) ∧
    (driverMay s f = true → bits v.toNat 15 6 = 0 → s.shoots = [] → (∀ c, coreHolds s k c = false) →
      ∃ t, exec (.tinvctl f v) s = .next t ∧ t.shoots = [] ∧ t.fcsr f 0x048 = v ∧ t.fcsr f 0x049 = s.fcsr f 0x049 + 1 ∧
        t.mem = s.mem ∧ ∀ c, ∀ x ∈ (t.core c).tlb, x.f = f → k.covers x.va x.size = false)

/-- R49, R50, R53, R54, R90, R103, R107: TAIL is written and the entry it publishes is due by its KIND, or stops the queue; an
admitted launch is refused with its cause, or runs, or waits for its predecessors; a kernel that passes the loader's checks is
loaded and no other; a known shape settles its launch; CONFIRM and SQUASH end what a provisional team holds, with the results of
R107. How records leave the board and drained launches close is the model's reading (logs 49 to 52). -/
def Obligations.Launches : Prop :=
  (∀ (f q : Nat) (v : Word) (s : State),
    let u := put32 f (qHdr s f q) v.toNat s
    (driverMay s f = false ∨ s.power ≠ .service ∨ (s.func f).enabled = false → Becomes (.tail f q v) s s) ∧
    (∀ x, driverMay s f = true → s.power = .service → agCause u f (qHdr u f q) 64 = none →
      let core := leadCore s f
      let w := agTouch core (qHdr u f q) 64 u
      let z := agTouch core (entryAt w f q) 8 w
      nextEntry w f q = some x → agentRangeBad w (entryAt w f q) 8 = false →
      (x / 2 ^ 56 = 0 → Becomes (.tail f q v) s (z.due [fw core f (.admission core f q)])) ∧
      (x / 2 ^ 56 = 16 → Becomes (.tail f q v) s (z.due [fw core f (.loadRecord core f q)])) ∧
      (x / 2 ^ 56 ≠ 0 → x / 2 ^ 56 ≠ 16 →
        Becomes (.tail f q v) s (atomOrW f (qHdr w f q + 0x1C) 2 (takeEntry f q z)).2))) ∧
  (∀ (core f q x : Nat) (s : State), nextEntry s f q = some x →
    let r := x % 2 ^ 56
    (∀ u, u = agTouch core r 256 (takeEntry f q s) → x / 2 ^ 56 = 0 → agCause (takeEntry f q s) f r 256 = none →
      let v := put32 f (rQUEUE r) q u
      let own := ag32 v f (qHdr v f q + 0x14) % 32
      let ends := fun (w : State) => Becomes (.admission core f q) s (lookAtQueue core f q w)
      let clear := ag32 v f (rSTOPAT r) = 0 ∧ ag32 v f (rPREEMPT r) = 0
      ((u.func f).tdisp = .locked ∨ (recState u f r ≠ 1 ∧ recState u f r ≠ 2) → ends (atomAddW f (qHdr u f q + 0x2C) 1 u).2) ∧
      ((u.func f).tdisp ≠ .locked → (recState u f r = 1 ∨ recState u f r = 2) →
        (∀ c, recordCause v f own r false = some c → ends (closeLaunch closeDepth f r 0 (put32 f (rERROR r) c v))) ∧
        (recordCause v f own r false = none → recSpec v f r = false → clear →
          (recState u f r = 1 → recNteam v f r ≠ 0 → ends (putOnBoard f r v)) ∧
          (recState u f r = 1 → recNteam v f r = 0 → ends (closeLaunch closeDepth f r 0 v)) ∧
          (recState u f r = 2 → (atomDecW f (rDEPS r) v).1 ≠ 1 → ends (atomDecW f (rDEPS r) v).2)))) ∧
    (∀ u, u = agTouch core r 64 (takeEntry f q s) → x / 2 ^ 56 = 16 → agCause (takeEntry f q s) f r 64 = none →
      let v := loadView u f r
      let reason := loadReason u f v
      let answer := refusalBytes reason.1 v.kernel v.target (ag32 u f (r + 0x14)) reason.2
      (∀ y ∈ loadReads u f v, agentRangeBad u y.1 y.2 = false) → agCause u f (ag64 u f (r + 0x18)) answer.length = none →
      let others := (u.func f).loaded.filter (fun l => !(l.1 == v.desc && l.2.1 == v.target))
      ∃ t, exec (.loadRecord core f q) s = .next t ∧
        (t.func f).loaded = if reason.1 = 0 then (v.desc, v.target, v.object) :: others else (u.func f).loaded)) ∧
  (∀ (core f r : Nat) (s : State), r ≠ 0 →
    let u := learnShape f r (takeAll f 4 s)
    (ag32 u f (rSHAPEV r) = 0xFFFFFFFF → Becomes (.settlement core f r) s u) ∧
    (ag32 u f (rSHAPEV r) ≠ 0xFFFFFFFF → Becomes (.settlement core f r) s (settle1 core f r false u))) ∧
  ∀ (r : SysxArgs) (s : State) (e : Env), Issues s e → e.isAgent = true →
    Free e [srcS r.a.toNat, srcS (r.a.toNat + 1), srcS r.b.toNat, dstS r.d.toNat] →
    let does := fun (i : Instr) (n : Nat) (u : State) => Does i s e (putS e r.d.toNat (word n) u)
    (namedTeam r e s = none →
      does (.confirm r) 1 s ∧ does (.squash r) (if e.ctx.progress.started then 0 else 1) s) ∧
    ∀ c sl, namedTeam r e s = some (c, sl) →
      let T := s.team c sl
      (T.prov = false → does (.confirm r) 1 s ∧ (e.ctx.progress.started = false → does (.squash r) 1 s)) ∧
      (T.status ≠ .free → T.prov = true → T.endedProv = true →
        (let v := commitHeld c sl s
         (T.status ≠ .ending ∨ storesAnswered v c sl = true → does (.confirm r) (if T.kept = 0 then 2 else 3) (commitEnded c sl v)) ∧
         (T.status = .ending → storesAnswered v c sl = false → ∃ t, exec (.confirm r) s = .next t ∧ Waits v t)) ∧
        (e.ctx.progress.started = false →
          does (.squash r) (if T.kept = 0 then 2 else 3) (freeTeam c sl false (dropHamper c sl s)))) ∧
      (T.status ≠ .free → T.prov = true → T.status ≠ .ending → T.endedProv = false →
        (let u := commitHamper c sl s
         does (.confirm r) 0 (u.setTeam c sl { u.team c sl with prov := false })) ∧
        (e.ctx.progress.started = false →
          ∃ t, exec (.squash r) s = .next t ∧ t.waited = true ∧ (t.ctx e.ref).progress.started = true ∧
            (t.team c sl).status = .ending ∧ (t.team c sl).killed = true ∧ (t.team c sl).endKind = .squash ∧
            { instr := .teamEnd c sl } ∈ t.agenda))

/-- R77 to R84, R100, R101: SPAWN reserves slots, writes its records and announces full batches, or traps where the Basket is not
there or full; POSTR writes RESULT; POSTS posts a shape that stands unposted; a ready batch is dispatched, discarded or fails its
node; the first record of a batch arms its timer; the timer closes the batch short; an idle graph releases its successor. Which
batch the timer closes, and that it is a step due at a clock value, are the model's choices (logs 57, 58). -/
def Obligations.SpawnsAndBatches : Prop :=
  (∀ (d a : BitVec 6) (p : BitVec 3) (w : BitVec 4) (s : State) (e : Env), WholeGroup s e → e.profileL = false →
    isStack e.core = false →
    let val := fun (z : BitVec 6) => (e.ctx.readS z.toNat).toNat
    let f := e.team.f
    let b := readBasket s f (val a)
    let sel := e.active.filter (fun l => e.group.readP p.toNat l)
    let full := decide (b.nblk * b.batch < (ag32 s f (bTAIL b) + sel.length + 2 ^ 32 - ag32 s f (bFREE b)) % 2 ^ 32)
    let traps := fun (i : Instr) (c : Nat) => ∃ t, exec i s = .next t ∧ Traps e c e.reportLane 0 e.gang.pc s t
    (e.team.prov = true → ∀ i ∈ [Instr.spawn d a p, .postr a, .posts d w a], d.toNat < e.team.regs →
      ∃ t, exec i s = .next t ∧ Waits s t) ∧
    (e.team.prov = false → d.toNat < e.team.regs → Free e [srcS a.toNat] →
      (nnode s f ≤ val a → traps (.spawn d a p) cBasket) ∧
      (val a < nnode s f → d.toNat + b.words - 1 < e.team.regs →
        Free e (if sel.isEmpty then [] else (span d.toNat b.words).map (fun r => srcV r)) →
        let usable := b.isOpen && b.code != 0 && graphStatus s f b == 0
        (usable = false → traps (.spawn d a p) cBasket) ∧
        (usable = true → sel = [] → Does (.spawn d a p) s e (endRestart e s)) ∧
        (usable = true → sel ≠ [] → full = true → traps (.spawn d a p) cBasket) ∧
        (usable = true → sel ≠ [] → full = false → Does (.spawn d a p) s e
          (spawnRecords e (val a) d.toNat (ag32 s f (bTAIL b)) b sel (atomAddW f (bTAIL b) sel.length s).2)))) ∧
    (e.team.prov = false → Free e [srcS a.toNat] →
      Does (.postr a) s e (put32 f (e.team.record + 0x30) (val a) (recordRelease e ((e.team.record + 0x30) / 64) (endRestart e s)))) ∧
    (∀ ps u, e.team.prov = false → Free e [srcS a.toNat, dstS d.toNat] → (e.ctx.window w.toNat).kind = .global →
      (e.ctx.window w.toNat).frame % 4 = 0 → val a ≤ 0x7FFFFFFF →
      locate e (e.ctx.window w.toNat) 0 0 4 (fun _ => false) 0 .atomic (fun tag => tag) (endRestart e s) = (.ok ps, u) →
      let h := (ps.headD { h := 0 }).h
      let v := recordRelease e (h / 64) (flushLine e (h / 64) u)
      let old := leNat (readBytes v.mem h 4)
      hIsSpad h = false → hTarget h = 1 →
      (old = 0xFFFFFFFF → Does (.posts d w a) s e (putS e d.toNat (word old) (homeWrite 0 ((span h 4).zip (leBytes 4 (val a))) v))) ∧
      (old ≠ 0xFFFFFFFF → Does (.posts d w a) s e (putS e d.toNat (word old) v)))) ∧
  (∀ (core f k : Nat) (s : State),
    let hdr := nodesAt s f + 64 * k
    let steps := [Instr.batchReady core f k, .basketOpened core f k, .lapse core f k]
    (nnode s f ≤ k → ∀ i ∈ steps, Becomes i s s) ∧
    (k < nnode s f → ∀ c, agCause s f hdr 64 = some c → ∀ i ∈ steps, Becomes i s (agentTrap core c s)) ∧
    (k < nnode s f → agCause s f hdr 64 = none →
      -- the header names a template, a block of the ring and a graph block, which the agent reaches one after the other
      let v0 := agTouch core hdr 64 s
      let b0 := readBasket v0 f k
      let v1 := agTouch core b0.template 256 v0
      let blk := b0.block (ag32 v0 f (bDISP b0))
      let v2 := agTouch core blk 64 v1
      let v3 := agTouch core b0.graph 16 v2
      agCause v0 f b0.template 256 = none → agCause v1 f blk 64 = none → agCause v2 f b0.graph 16 = none →
      let u := takeEvent core 5 v3
      let b := readBasket u f k
      let ends := fun (v : State) => Becomes (.batchReady core f k) s v
      (readyBatch u f b = none → ends u) ∧
      (∀ n size, readyBatch u f b = some (n, size) →
        (graphStatus u f b = 1 → ends (discardBatch core f k n size b u)) ∧
        (graphStatus u f b ≠ 1 → bit (recFlags u f b.template) 3 = true → ends u) ∧
        (graphStatus u f b ≠ 1 → bit (recFlags u f b.template) 3 = false →
          (templateCause u f b = none → ends (u.due [fw core f (.claim core f 0)])) ∧
          ∀ c, templateCause u f b = some c → ends (nodeFailure core f k 0 c u))) ∧
      (let armed := (casW f (bOPENER b) 0 (0x80000000 + core % 512) u).2
       let timer := ag32 armed f (b.at_ + 0x1C)
       let opens := fun (v : State) => Becomes (.basketOpened core f k) s v
       let won := (casW f (bOPENER b) 0 (0x80000000 + core % 512) u).1
       ((won = false ∨ timer = 0) → opens armed) ∧
       (won = true → timer ≠ 0 → opens (armTimer core (armed.due [fw core f (.lapse core f k) [(armed.core core).clk + timer]])))) ∧
      let w := armTimer core (takeEvent core 6 v3)
      let c := readBasket w f k
      let T := ag32 w f (bTAIL c)
      let n := T / c.batch
      let closes := c.code != 0 && c.nblk != 0 && T % c.batch != 0
      let shut := if closes then put32 f (c.block n + 4) (T % c.batch) (put32 f (bTAIL c) ((n + 1) * c.batch % 2 ^ 32) w) else w
      Becomes (.lapse core f k) s ((put32 f (bOPENER c) 0 shut).due [fw core f (.batchReady core f k)]))) ∧
  ∀ (core f g : Nat) (s : State), agCause s f g 16 = none →
    let u := takeAll f 7 (agTouch core g 16 s)
    let succ := ag32 u f (g + 4) % 65536
    let status := ag32 u f (g + 8) % 4
    let notify := ag32 u f (g + 12)
    let told := fun (v : State) => if bit notify 16 then sendIrq (notify % 32) (bits notify 15 8) v else v
    let ends := fun (v : State) => Becomes (.graphIdle core f g) s v
    (ag32 u f g ≠ 0 ∨ 2 ≤ status → ends u) ∧
    (ag32 u f g = 0 → status = 0 → succValid u f succ = true → graphReserved u f g = false →
      ends (told (releaseSucc f succ (put32 f (g + 8) 2 u)))) ∧
    (ag32 u f g = 0 → status = 0 → (succValid u f succ = false ∨ graphReserved u f g = true) →
      ends (told (put32 f (g + 8) 3 u))) ∧
    (ag32 u f g = 0 → status = 1 → ends (told (put32 f (g + 8) 3 u)))

/-! ## Traps, preemption and the agents' own steps -/

/-- R181, R391 to R393, R396, R397, R283: RTT does its action on the stopped context that STAGE names and clears RESULT, or, where
the tests of R392 fail, sets RESULT and does nothing else. FAIL and ABORT bring the team to its end; RESUME and STEP let it issue
again at RPC; HANDLER enters the user handler with the frame in s56 to s63, but for a BREAKPOINT while a debugger is attached; HOLD
and WAITPAGE keep the frame. The lower core's agent acts on both cores of a pair team. That staged aborts
count, and the order of a provisional team's frames, are the model's readings (logs 73, 103). -/
def Obligations.TrapReturn : Prop :=
  ∀ (s : State) (e c : Env), Issues s e → e.isAgent = true → s.request = none →
    let st := (s.core e.core).stage.toNat
    let no := bits st 22 16
    let fr := (s.core c.core).frame no
    let rows : List (Nat × Instr) := [(0, .fail), (1, .resume), (2, .handler), (3, .hold), (4, .step), (5, .waitPage), (6, .abort)]
    -- FAIL and ABORT by team slot (BYTEAM)
    (bit st 28 = true →
      let refused := fun (i : Instr) => Does i s e (stageResult e.core true s)
      let who := teamInSlot s e.core (bits st 27 24)
      (who = none → ∀ p ∈ rows, refused p.2) ∧
      ∀ l sl, who = some (l, sl) →
        let T := s.team l sl
        (l ≠ e.core → ∀ p ∈ rows, refused p.2) ∧
        (∀ p ∈ rows, p.1 ≠ 0 → p.1 ≠ 6 → refused p.2) ∧
        (T.runsRestart = false ∨ T.killed = true → refused .abort) ∧
        (l = e.core → T.status ≠ .free → T.status ≠ .ending → T.endedProv = false →
          let ends := fun (i : Instr) (k : EndKind) => ∃ t, exec i s = .next t ∧ t.pcAt e = some (nextPc e 1) ∧
            (t.core e.core).stage.getLsbD 31 = false ∧ t.mem = s.mem ∧ (t.team l sl).status = .ending ∧
            (t.team l sl).killed = true ∧ (t.team l sl).endKind = k ∧ { instr := .teamEnd l sl } ∈ t.agenda
          ends .fail .fail ∧ (T.runsRestart = true → T.killed = false → ends .abort .abort))) ∧
    (bit st 28 = false →
    (rttEnv s e.core no = none → ∀ p ∈ rows, Does p.2 s e (stageResult e.core true s)) ∧
    (rttEnv s e.core no = some c →
      (∀ p ∈ rows, (actionOk p.1 fr c.team no = false ∨ debuggerKeeps s p.1 fr c.team = true) → Does p.2 s e (stageResult e.core true s)) ∧
      let acts := fun (n : Nat) (i : Instr) (ok : State → Prop) =>
        actionOk n fr c.team no = true → debuggerKeeps s n fr c.team = false →
        ∃ t, exec i s = .next t ∧ t.pcAt e = some (nextPc e 1) ∧ (t.core e.core).stage.getLsbD 31 = false ∧ t.mem = s.mem ∧ ok t
      let now := fun (t : State) => (t.core c.core).frame no
      let goes := fun (t : State) => (now t).new = false ∧ (now t).held = false ∧ (now t).waitPage = false ∧
        (c.isScalar = true → (t.team c.lower c.slot).stopped = false ∧ (t.team c.lower c.slot).ctx.pc = fr.rpc) ∧
        (c.isScalar = false → (t.group c.lower c.slot c.gi).stopped = false ∧
          ∀ x ∈ (s.group c.lower c.slot c.gi).gangs, x.lanes = fr.gang →
            { x with pc := fr.rpc, stamp := s.time, born := s.time } ∈ (t.group c.lower c.slot c.gi).gangs)
      let ends := fun (k : EndKind) (t : State) => c.team.status ≠ .free → c.team.status ≠ .ending → c.team.endedProv = false →
        (t.team c.lower c.slot).status = .ending ∧ (t.team c.lower c.slot).killed = true ∧
          (t.team c.lower c.slot).endKind = k ∧ { instr := .teamEnd c.lower c.slot } ∈ t.agenda
      acts 0 .fail (ends .fail) ∧
      (c.team.status ≠ .ending → acts 1 .resume goes) ∧
      acts 2 .handler (fun t =>
        let x := t.ctx c.ref
        (now t).handling = true ∧ (now t).new = false ∧ x.readS 56 = word (fr.lane * 0x10000 + fr.cause) ∧ x.readS 57 = fr.tpc ∧
          x.readS 58 = fr.rpc ∧ x.readS 59 = c.ctx.mr ∧ x.readS 60 = loWord fr.gang.toNat ∧ x.readS 61 = hiWord fr.gang.toNat ∧
          x.readS 62 = loWord fr.addr ∧ x.readS 63 = hiWord fr.addr ∧ x.mr = (s.ctx c.ref).mr &&& 0xFFFFC3FF ∧
          (∀ k < 56, x.readS k = (s.ctx c.ref).readS k) ∧ (t.group c.lower c.slot c.gi).handler = some fr.gang ∧
          ∀ y ∈ (t.group c.lower c.slot c.gi).gangs, y.lanes = fr.gang → y.pc = c.team.handlerPc) ∧
      acts 3 .hold (fun t => now t = { fr with new := false, held := true }) ∧
      -- a group that has no gang left to issue has stepped at once (R181)
      (c.team.status ≠ .ending →
        let g := s.group c.lower c.slot c.gi
        let goes := ∃ x ∈ g.gangs, ∀ m, g.handler = some m → x.lanes &&& m ≠ 0
        (c.isScalar = true ∨ goes → acts 4 .step (fun t => (now t).new = false ∧ (now t).held = false ∧
          if c.isScalar then (t.team c.lower c.slot).stepping = true else (t.group c.lower c.slot c.gi).stepping.isSome = true)) ∧
        (c.isScalar = false → ¬ goes → (reportGang g).isSome = true →
          acts 4 .step (fun t => (now t).new = true ∧ (now t).cause = cStep))) ∧
      acts 5 .waitPage (fun t => now t = { fr with new := false, waitPage := true }) ∧
      acts 6 .abort (ends .abort)))

/-- R399, R404, R405: EF0 dismisses the oldest engine fault record; a debug request acts on the named context of its own function,
puts the frame's words in DBGFRAME and clears GO, and for any other context answers a frame of zero words. Whose contexts a debug
request may name is the model's reading (log 72). -/
def Obligations.DebugRequests : Prop :=
  ∀ (core : Nat) (s : State),
    (∃ t, exec (.ef0 core) s = .next t ∧ (t.core core).engfaults = (s.core core).engfaults.tail ∧ t.mem = s.mem) ∧
    let f := (s.request.map (·.f)).getD 0
    let v := (s.request.map (·.value)).getD 0
    let c := dbgCore v
    let no := dbgCtx v
    let fr := (s.core c).frame no
    let answers := fun (i : Instr) (ok : State → Frame → Prop) =>
      ∃ t x, exec i s = .next t ∧ (∀ k < 10, t.fcsr f (0x052 + k) = frameWord x k) ∧ (t.fcsr f 0x051).getLsbD 31 = false ∧ ok t x
    let mine := match ctxEnv s c no 0 0 with
      | some x => x.team.f == f
      | none => false
    let all : List Instr := [.dbgreqStop, .dbgreqResume, .dbgreqStep, .dbgreqFail, .dbgreqReadFrame]
    (mine = false → ∀ i ∈ all, answers i (fun t x => x = {} ∧ t.teams = s.teams ∧ t.groups = s.groups)) ∧
    ∀ x, mine = true → frameEnv s c no = some x →
      answers .dbgreqReadFrame (fun t y => y = (if fr.live then fr else {}) ∧ t.teams = s.teams ∧ t.groups = s.groups ∧ t.mem = s.mem) ∧
      (actionOk 1 fr x.team no = false → answers .dbgreqResume (fun t y => y = {} ∧ t.teams = s.teams ∧ t.groups = s.groups) ∧
        answers .dbgreqStep (fun t y => y = {} ∧ t.teams = s.teams ∧ t.groups = s.groups)) ∧
      (actionOk 1 fr x.team no = true → x.team.status ≠ .ending →
        let runs := fun (t : State) => if x.isScalar then (t.team x.lower x.slot).stopped = false else (t.group x.lower x.slot x.gi).stopped = false
        answers .dbgreqResume (fun t y => y.new = false ∧ y.held = false ∧ runs t) ∧
        (x.isScalar = true ∨ (∃ y ∈ x.group.gangs, ∀ m, x.group.handler = some m → y.lanes &&& m ≠ 0) →
          answers .dbgreqStep (fun t y => y.new = false ∧ y.held = false ∧ runs t ∧
          if x.isScalar then (t.team x.lower x.slot).stepping = true else (t.group x.lower x.slot x.gi).stepping.isSome = true))) ∧
      (actionOk 0 fr x.team no = true → x.team.status ≠ .free → x.team.status ≠ .ending → x.team.endedProv = false →
        answers .dbgreqFail (fun t _ => (t.team x.lower x.slot).status = .ending ∧ (t.team x.lower x.slot).endKind = .fail ∧
          { instr := .teamEnd x.lower x.slot } ∈ t.agenda)) ∧
      (fr.live = false → x.isScalar = false → x.team.killed = false → x.group.stopped = false →
        (reportGang x.group).isSome = true →
        answers .dbgreqStop (fun t y => y.live = true ∧ y.cause = cDebugHalt ∧ (t.group x.lower x.slot x.gi).stopped = true))

/-- R408, R410, R414, R416 to R418: SAVEG writes the image of a quiet team and frees it, refuses with the codes of R410, or waits;
RESTG answers what the restore answers, 2 where no image stands; SAVENOW marks a draining launch; a world switch cleans the cores of
its octet and with the last one changes the owner; an abandoned octet goes on. Bits of the image that the spec leaves open, what a
save carries with it and when a switch ends are the model's choices (logs 76 to 79). -/
def Obligations.SaveAndRestore : Prop :=
  (∀ (r : SysxArgs) (s : State) (e : Env), Issues s e → e.isAgent = true → s.request = none →
    Free e [srcS r.a.toNat, srcS (r.a.toNat + 1), srcS r.b.toNat, dstS r.d.toNat] →
    let a := pairAddr e r.a.toNat
    let b := (e.ctx.readS r.b.toNat).toNat
    let slot := bits b 3 0
    let refusal := saveRefusal s e.core a b
    (bits b 31 16 = 0 → bits b 7 4 = 0 →
      (refusal = 1 → Does (.saveg r) s e (putS e r.d.toNat 1 s)) ∧
      (1 < refusal → Does (.saveg r) s e
        (putS e r.d.toNat (word refusal) (s.setTeam e.core slot { s.team e.core slot with saving := false }))) ∧
      (refusal = 0 → ((s.team e.core slot).endedProv = true ∨ saveReady s e.core slot = true) →
        let v := undoBars e.core slot s
        (newFrame v e.core slot = false →
          Does (.saveg r) s e (putS e r.d.toNat (word ((imageSize v e.core slot + 65535) / 65536 * 256)) (writeImage a e.core slot v)) ∧
          ((writeImage a e.core slot v).team e.core slot).status = .free) ∧
        (newFrame v e.core slot = true →
          Does (.saveg r) s e (putS e r.d.toNat 3 (v.setTeam e.core slot { v.team e.core slot with saving := false })))) ∧
      (refusal = 0 → (s.team e.core slot).endedProv = false → saveReady s e.core slot = false →
        ∃ t, exec (.saveg r) s = .next t ∧ t.waited = true ∧ (t.team e.core slot).saving = true)) ∧
    (bits b 31 1 = 0 → regionHeld s (servedBy s e.core) a = false →
      let p := restoreTeam e.core a (bit b 0) false s
      Does (.restg r) s e (putS e r.d.toNat (word (p.1.1 + 256 * p.1.2)) p.2) ∧
      (∀ hd u, regionRead (servedBy s e.core) a 256 s = (.ok hd, u) →
        (imw hd 0 ≠ 0x47534157 ∨ imw hd 4 ≠ 1) → p = ((2, 0), u)))) ∧
  (∀ (core f r : Nat) (s : State), agCause s f r 256 = none →
    let u := armTimer core (takeEvent core 6 (agTouch core r 256 s))
    (recState u f r ≠ 4 → Becomes (.saveNow core f r) s u) ∧
    (recState u f r = 4 →
      let v := (atomOrW f (rPREEMPT r) 1 u).2
      Becomes (.saveNow core f r) s (v.due [{ instr := .kick f (recQueue u f r) }]))) ∧
  ∀ (octet : Nat) (s : State),
    let f := reqFunc s
    let wsctl := (s.fcsr f 0x061).toNat
    let inc := bits wsctl 4 0
    let clean := fun (t : State) => ∀ k < 8, (t.core (8 * octet + k)).acc = [] ∧ (t.core (8 * octet + k)).l1 = [] ∧
      (t.core (8 * octet + k)).imem = [] ∧ (t.core (8 * octet + k)).frames = [] ∧
      ∀ sl < 16, (t.team (8 * octet + k) sl).status = .free
    let last := (sharedOctets s f).all (fun o => o == octet || (s.func f).switched.contains o)
    (bit wsctl 31 = false → Becomes (.worldSwitch octet) s s) ∧
    (bit wsctl 31 = true → fwArg s 0 ≠ 1 → last = false → ∃ t, exec (.worldSwitch octet) s = .next t ∧ clean t ∧
      octet ∈ (t.func f).switched ∧ (t.func f).worldResident = (s.func f).worldResident) ∧
    (bit wsctl 31 = true → fwArg s 0 ≠ 1 → last = true → inc ≠ f → ∃ t, exec (.worldSwitch octet) s = .next t ∧ clean t ∧
      (t.func f).worldResident = false ∧ (t.func inc).worldResident = true ∧
      ∃ d ∈ t.agenda, d.instr = .worldSwitch octet ∧ d.req.any (fun q => q.f == f && q.args == [1]) = true) ∧
    (bit wsctl 31 = true → fwArg s 0 = 1 →
      Becomes (.worldSwitch octet) s ((s.setFcsr f 0x061 (word inc)).due [{ instr := .kick inc 0 }])) ∧
    ∃ t, exec (.switchAbandon octet) s = .next t ∧ octet ∉ (t.func f).switched ∧
      ∀ d ∈ t.agenda, d.instr = .worldSwitch octet → (d.req.any (fun q => q.f == f)) = false

/-- R46, R60, R62, R67, R105, R283, R453: an agent that finds work does one piece of it: a claim of a ticket starts the team of the
ticket drawn, or finds the launch exhausted; an aborted team starts again with its index and its block; RETIRE counts the ended team
by its row of R453; KICK makes the agents look at all that is pending. Which agent acts and how rows wait are the model's choices
(logs 46, 86). -/
def Obligations.AgentWork : Prop :=
  (∀ (core f r : Nat) (s : State),
    (r = 0 → workFor s core f = none → Becomes (.claim core f r) s (startClaims f (core + 1) s)) ∧
    (∀ w, r = 0 → workFor s core f = some w → Becomes (.claim core f r) s (startClaims f (core + 1) (doWork core f w s))) ∧
    ∀ row x k v, r = 0 → workFor s core f = some (.entry row x) → recStop s f x = false → recSpec s f x = false →
      roomOn s core f x none = some (k, v) →
      let p := atomAddW f (rNEXT x) 1 s
      (p.1 < recNteam p.2 f x → p.1 < 0x80000000 →
        ∃ t, exec (.claim core f r) s = .next t ∧ (t.team v.lower v.slot).status = .starting ∧
          (t.team v.lower v.slot).record = x ∧ (t.team v.lower v.slot).idx = p.1 ∧ (t.team v.lower v.slot).f = f) ∧
      (recNteam p.2 f x ≤ p.1 → Becomes (.claim core f r) s (startClaims f (core + 1) (dropFromRow f row x p.2)))) ∧
  (∀ (core f ticket : Nat) (s : State),
    let found := (s.func f).restarts.find? (fun k => k.idx == ticket && pageFound s f k.va && servesLaunch s core f k.record)
    (found = none → Becomes (.restart core f ticket) s s) ∧
    ∀ k kn v, found = some k → k.prov = false → roomOn s core f k.record (some (restartPriv s f k)) = some (kn, v) →
      ∃ t, exec (.restart core f ticket) s = .next t ∧ (t.team v.lower v.slot).status = .starting ∧
        (t.team v.lower v.slot).idx = ticket ∧ (t.team v.lower v.slot).aborts = k.aborts ∧ (t.team v.lower v.slot).nteam = k.nteam ∧
        (t.team v.lower v.slot).record = k.record ∧ (t.func f).restarts = (s.func f).restarts.erase k) ∧
  (∀ (core slot : Nat) (s : State),
    let f := reqFunc s
    let r := fwArg s 0
    let idx := fwArg s 1
    let how := fwArg s 2
    let node := fwArg s 5
    let ends := fun (u : State) => Becomes (.retire core slot) s
      (startClaims f core (retryRestores f (beginSwitch f (leaveCores f (takeEvent core 1 u)))))
    (how = 3 ∨ how = 4 → ends s) ∧
    (how < 3 → node ≠ 0 → ends (nodeRetire core f (node - 1) idx s)) ∧
    (how < 3 → node = 0 → fwArg s 3 = 1 → ends (if recSettled s f r then settleTeam core slot s else s)) ∧
    (how < 3 → node = 0 → fwArg s 3 = 2 → ends (retireImage core slot s)) ∧
    (how < 3 → node = 0 → fwArg s 3 ≠ 1 → fwArg s 3 ≠ 2 →
      (how = 2 → ends (dropLive f r (retractChunk core f r idx s))) ∧
      (how < 2 → fwArg s 4 = 1 → ends (countRestored f r s)) ∧
      (how < 2 → fwArg s 4 ≠ 1 → ends (countDone f r s)))) ∧
  ∀ (f q : Nat) (s : State),
    let u := resolveRetried f (fun _ => true) (retryOps f (retryPages f (raiseAll f 2 s)))
    let v := retryRestores f (reapImages (leadCore u f) f (beginSwitch f (leaveCores f u)))
    let w := if queuesRun v f then wakeQueues f v else v
    (q < 8 → s.power = .service → Becomes (.kick f q) s (startClaims f 0 (takeAll f 10 (takeAll f 2 w)))) ∧
    (8 ≤ q ∨ s.power ≠ .service → Becomes (.kick f q) s s)

/-! ## Slices and the Larder -/

/-- R427, R430, R432, R458: MAPDATA binds a free row block at its next generation with zero plaintext, or scrubs one and takes it
from the map, and answers in MAPSEL.ERR; enabling a function installs one triple of keys in its slot of every stack; disabling one
ends its teams, unbinds its memory, erases its keys and its map, and SCRUB_COMPLETE ends the scrub. That the scrub is done at once
and BUSY held until its completion, with its row blocks not bound meanwhile, is the model's reading (logs 69, 85). -/
def Obligations.SlicesBindAndScrub : Prop :=
  ∀ (g : Nat) (s : State),
    let f := reqFunc s
    let pa := entryPa (reqValue s) 0
    let key := mapKey (mapSelBank s f) (mapSelRb s f)
    let entry := tget (s.func f).map 0 key
    let zeroed := fun (t : State) (p : Nat) => ∀ a, hTarget a = 0 → rbKey (hAddr a) = rbKey p → readByte t.mem a = 0
    -- the function's slot of every stack holds `k`, and the other functions' slots what they held
    let slots := fun (t : State) (k : Option KeyTriple) => (∀ x < Config.stackCount, keySlot t x f = k) ∧
      ∀ x n, n < 32 → f < 32 → n ≠ f → keySlot t x n = keySlot s x n
    let bindable := mapSelOk s f && !bit entry 31 && blockFree s pa && sameBank s f (mapSelBank s f) pa
    (mapOpen s f = false → Becomes .mapdataBind s s ∧ Becomes .mapdataScrub s s) ∧
    (mapOpen s f = true → bindable = true → ∃ t, exec .mapdataBind s = .next t ∧ (rowBlock t pa).owner = f ∧
      (rowBlock t pa).bound = true ∧ (rowBlock t pa).pgen = (rowBlock s pa).pgen + 1 ∧ tget (t.func f).map 0 key = entryFor t pa ∧
      (rowBlock t pa).pz = ((rowBlock s pa).pz || bit (reqValue s) 30) ∧ zeroed t pa ∧
      (t.fcsr f 0x10C).getLsbD 31 = false ∧ ∀ k, k ≠ key → tget (t.func f).map 0 k = tget (s.func f).map 0 k) ∧
    (mapOpen s f = true → bindable = false → Becomes .mapdataBind s (setMapErr f true s)) ∧
    (mapOpen s f = true → mapSelOk s f = true → ∃ t, exec .mapdataScrub s = .next t ∧ tget (t.func f).map 0 key = 0 ∧
      (t.fcsr f 0x10C).getLsbD 31 = false ∧
      (bit entry 31 = true → (rowBlock t (entryPa entry 0)).bound = false ∧ zeroed t (entryPa entry 0)) ∧
      (bit entry 31 = false → t.mem = s.mem ∧ t.rowBlocks = s.rowBlocks)) ∧
    (mapOpen s f = true → mapSelOk s f = false → Becomes .mapdataScrub s (setMapErr f true s)) ∧
    (let may := s.power == .service && decide (f < 32) && !(s.func f).enabled && !bit (s.fcsr f 0x118).toNat 31
     (may = true → ∃ t k, exec .functionEnable s = .next t ∧ t.func f = { s.func f with enabled := true, tdisp := .unlocked } ∧
       slots t (some k) ∧ t.mem = s.mem ∧ ∀ n, n ≠ f → t.func n = s.func n) ∧
     (may = false → Becomes .functionEnable s s)) ∧
    ((f = 0 ∨ (s.func f).enabled = false) → Becomes .functionDisable s s) ∧
    (f ≠ 0 → (s.func f).enabled = true → ∃ t, exec .functionDisable s = .next t ∧ (t.func f).enabled = false ∧
      slots t none ∧ (t.func f).map = [] ∧ (t.func f).amend = none ∧ (t.func f).saved = [] ∧
      { instr := .scrubComplete f } ∈ t.agenda ∧ (∀ c sl, (t.team c sl).status ≠ .free → (t.team c sl).f ≠ f) ∧
      ((s.func f).tdisp = .unlocked → t.fcsr f 0x118 = word (0x80000000 + (mappedBlocks s f).length) ∧
        ∀ e ∈ mappedBlocks s f, (rowBlock t e.2).bound = false ∧ zeroed t e.2)) ∧
    (bit (s.fcsr g 0x118).toNat 31 = true →
      Becomes (.scrubComplete g) s (reply g true [] ((s.setFunc g { s.func g with scrubbing := [] }).setFcsr g 0x118 0))) ∧
    (bit (s.fcsr g 0x118).toNat 31 = false → Becomes (.scrubComplete g) s s)

/-- R427, R433 to R435, R443, R466: the Larder answers SPDM requests, with certificate slot 0 and the algorithms of R433, and keeps
up to four sessions of a function; inside one of the host's LOCK gives a function new keys and rebinds its memory, START lets it
run, STOP ends its teams and unlocks it; an integrity failure, a parity error or a protocol violation puts it into ERROR: its teams
end, its bank-unit contexts are FAULTED and its keys erased. Answers to a request begin with the model's own byte, 1 or 0 (a choice
of the model: log 74). Which request is refused in which state, the bytes SPDM leaves open, and the numbers of SPDM's codes and
algorithms are the model's too (logs 75, 82, 137). -/
def Obligations.LarderAnswersRequests : Prop :=
  ∀ (s : State),
    let f := reqFunc s
    let fn := s.func f
    let id := reqValue s
    let gives := fun (i : Instr) (bs : List Byte) => Becomes i s { s with replies := s.replies ++ [(f, bs)] }
    let refuses := fun (i : Instr) => gives i [0]
    let answers := fun (i : Instr) (g : Func) => ∃ bs : List Byte, bs.length = 64 ∧
      Becomes i s { s.setFunc f g with free := s.free + 1, replies := s.replies ++ [(f, 1 :: bs)] }
    let session := fun (x : Bool) => fn.sessions.any (fun z => z.id == id && z.finished == x)
    let fresh := fun (t : State) => ∃ k : KeyTriple, ∀ x < Config.stackCount, keySlot t x f = some k
    let erased := fun (t : State) => ∀ x < Config.stackCount, keySlot t x f = none
    let messages : List Instr := [.getVersion, .getCapabilities, .negotiateAlgorithms, .getDigests, .getCertificate, .challenge,
      .getMeasurements, .keyExchange, .finish, .heartbeat, .keyUpdate, .endSession, .amendStatus]
    (larderAnswers s = false → ∀ i ∈ messages, (s.power = .safe → gives i [0, 5]) ∧ (s.power ≠ .safe → Becomes i s s)) ∧
    (larderAnswers s = true →
      gives .getVersion [1, 0x13] ∧ gives .negotiateAlgorithms (1 :: algorithms) ∧
      gives .getDigests (1 :: sha512 certificateChain) ∧
      gives .getCertificate (if id = 0 then 1 :: certificateChain else [0]) ∧
      (∀ i ∈ [Instr.getCapabilities, .challenge], ∃ bs : List Byte, bs.length = 64 ∧
        Becomes i s { s with free := s.free + 1, replies := s.replies ++ [(f, 1 :: bs)] }) ∧
      (∃ sig : List Byte, sig.length = 64 ∧ Becomes .getMeasurements s
        { s with free := s.free + 1,
                 replies := s.replies ++ [(f, 1 :: ((if id = 0xFF then (List.range 9).flatMap (fun i => measurement s f (i + 1))
                   else measurement s f id) ++ sig))] }) ∧
      (fn.sessions.length < 4 → answers .keyExchange
        { fn with sessions := fn.sessions ++ [{ id := fn.nextSession, tenant := reqTenant s }], nextSession := fn.nextSession + 1 }) ∧
      (4 ≤ fn.sessions.length → refuses .keyExchange) ∧
      (session false = true → answers .finish
        { fn with sessions := fn.sessions.map (fun z => if z.id == id then { z with finished := true } else z) }) ∧
      (session true = true → answers .heartbeat fn ∧ answers .keyUpdate fn ∧
        answers .endSession { fn with sessions := fn.sessions.filter (fun z => z.id != id) }) ∧
      (session true = false → ∀ i ∈ [Instr.heartbeat, .keyUpdate, .endSession], refuses i) ∧
      (session false = false → refuses .finish)) ∧
    (let may := f != 0 && s.power == .service && inHostSession s && fn.enabled && fn.tdisp == .unlocked && canRebind s f
     (may = false → refuses .lockInterface) ∧
     (may = true → ∃ t, exec .lockInterface s = .next t ∧ (t.func f).tdisp = .locked ∧ fresh t ∧
       t.replies = s.replies ++ [(f, [1])] ∧ ∀ c, ∀ x ∈ (t.core c).tlb, x.f ≠ f)) ∧
    ((inHostSession s = false ∨ fn.tdisp ≠ .locked) → refuses .startInterface) ∧
    (inHostSession s = true → fn.tdisp = .locked → Becomes .startInterface s
      { s.setFunc f { fn with tdisp := .run } with replies := s.replies ++ [(f, [1])] }) ∧
    ((f = 0 ∨ inHostSession s = false ∨ fn.tdisp = .unlocked) → refuses .stopInterface) ∧
    (f ≠ 0 → inHostSession s = true → fn.tdisp ≠ .unlocked → ∃ t, exec .stopInterface s = .next t ∧ (t.func f).tdisp = .unlocked ∧
      fresh t ∧ (t.func f).amend = none ∧ (t.func f).restarts = [] ∧ (t.func f).saved = [] ∧
      (∀ c sl, (t.team c sl).status ≠ .free → (t.team c sl).f ≠ f) ∧ t.replies = s.replies ++ [(f, [1])]) ∧
    ∀ i ∈ [Instr.ideIntegrityFailure, .parityError, .tdispProtocolViolation],
      (fn.tdisp = .error → Becomes i s s) ∧
      (fn.tdisp ≠ .error → f ≠ 0 → ∃ t, exec i s = .next t ∧ (t.func f).tdisp = .error ∧ erased t ∧
        (∀ b < nlb s f, (t.unit (unitKey f b)).run = .faulted ∧ (t.unit (unitKey f b)).faultCause = cSliceViolation) ∧
        ∀ c sl, sl < 16 → (s.team c sl).f = f → (s.team c sl).status ≠ .free → (s.team c sl).endedProv = false →
          (t.team c sl).status = .ending)

/-- R436 to R440: a proposal, made in the host's session, is refused by its code or stands pending with the next id; the tenant's
acceptance with its id and its SHA-512 digest, in one of the tenant's sessions, binds the destinations and makes it active, and any
other discards it; an abort or a Larder error ends it; COPY begins at stage 0 or 1 and copies a row at a time, FINAL, RELEASE and
COMMIT move its row blocks in that order, and refuse out of it. The reply's first byte, how a copy meets the function's stores, and
that COPY takes one row a step are the model's choices (logs 74, 83, 84). -/
def Obligations.Amendments : Prop :=
  ∀ (s : State),
    let f := reqFunc s
    let fn := s.func f
    let b := reqMsg s
    let n := bits (reqValue s) 15 0
    let tells := fun (i : Instr) (ok : Byte) (bs : List Byte) (g : Func) =>
      Becomes i s { s.setFunc f g with replies := s.replies ++ [(f, ok :: bs)] }
    let refuses := fun (i : Instr) => Becomes i s { s with replies := s.replies ++ [(f, [0])] }
    let host := s.power == .service && inHostSession s
    let tenant := s.power == .service && inTenantSession s
    (host = false → refuses .amendPropose ∧ refuses .amendAbort) ∧
    (host = true → amRefusal s f b = 0 → tells .amendPropose 1 (leBytes 4 (fn.lastId + 1) ++ sha512 b)
      { fn with amend := some { body := b, id := fn.lastId + 1 }, lastId := fn.lastId + 1, lastDigest := sha512 b,
                amendAbort := false }) ∧
    (host = true → amRefusal s f b ≠ 0 → Becomes .amendPropose s
      { s with replies := s.replies ++ [(f, 0 :: leBytes 4 (amRefusal s f b))] }) ∧
    (larderAnswers s = true → ∃ st : Nat, st ≤ 2 ∧ (fn.amend = none → st = 0) ∧
      (∀ a, fn.amend = some a → st = if a.active then 2 else 1) ∧
      Becomes .amendStatus s { s with replies := s.replies ++ [(f, 1 :: (leBytes 4 fn.lastId ++ leBytes 4 fn.amendDone ++
        leBytes 4 (if fn.amendAbort then 1 else 0) ++ leBytes 4 st))] }) ∧
    (fn.amend = none → refuses .amendAccept ∧ refuses .amendReject ∧ refuses .amendAbort) ∧
    (∀ a, fn.amend = some a →
      let dropped := { fn with amend := none }
      let good := imw b 0 == a.id && b.drop 4 == sha512 a.body
      ((a.active = true ∨ tenant = false) → refuses .amendAccept ∧ refuses .amendReject) ∧
      (a.active = false → tenant = true →
        tells .amendReject 1 [] dropped ∧
        (good = false → tells .amendAccept 0 [] dropped) ∧
        (good = true → amRecheck s f a.body ≠ 0 → tells .amendAccept 0 (leBytes 4 (amRecheck s f a.body)) dropped) ∧
        (good = true → amRecheck s f a.body = 0 → ∃ t x, exec .amendAccept s = .next t ∧ (t.func f).amend = some x ∧
          x.active = true ∧ x.id = a.id ∧ x.moves = (amBlocks a.body).map (fun y =>
            (mapKey y.1 y.2.1, y.2.2, entryPa (mapEntry s f y.1 y.2.1) 0)) ∧ t.replies = s.replies ++ [(f, [1])] ∧
          ∀ y ∈ amBlocks a.body, (rowBlock t y.2.2).owner = f ∧ (rowBlock t y.2.2).bound = true)) ∧
      (host = true → a.active = false → tells .amendAbort 1 [] dropped) ∧
      (host = true → a.active = true → ∃ t, exec .amendAbort s = .next t ∧ (t.func f).amend = none ∧ (t.func f).amendAbort = true ∧
        t.replies = s.replies ++ [(f, [1])])) ∧
    (∃ t, exec .larderError s = .next t ∧ t.replies = s.replies ∧ t.teams = s.teams ∧ ∀ g a, (s.func g).amend = some a →
      a.active = true → (t.func g).amend = none ∧ (t.func g).amendAbort = true) ∧
    (let stopped := fun (i : Instr) => Becomes i s (setMig f n 0 true s)
     -- the stage the command leaves, and no REFUSED of its own
     let staged := fun (t : State) (k : Nat) => (∃ a, (t.func f).amend = some a ∧ tget a.stage 0 n = k) ∧
       (t.fcsr f 0x117).getLsbD 30 = (s.fcsr f 0x117).getLsbD 30
     (migTarget s f n = none → (fwArg s 1 ≠ 1 → stopped .migcmdCopy) ∧ stopped .migcmdFinal ∧ stopped .migcmdRelease) ∧
     (∀ a key dst src st, migTarget s f n = some (a, key, dst, src, st) →
       let mapped := bit (tget fn.map 0 key) 31
       let rows := if st = 0 then List.range 256 else (rowBlock s src).dirty
       let left := fun (t : State) (rs : List Nat) => (∃ x, (t.func f).amend = some x ∧ x.rowsLeft = rs) ∧
         (rs ≠ [] → ∃ d ∈ t.agenda, d.instr = .migcmdCopy ∧ d.req.any (fun q => q.f == f && q.args == [s.time + 1, 1]) = true)
       (fwArg s 1 ≠ 1 → (2 ≤ st ∨ mapped = false) → stopped .migcmdCopy) ∧
       (fwArg s 1 ≠ 1 → st < 2 → mapped = true → ∃ t, exec .migcmdCopy s = .next t ∧ staged t 1 ∧ t.mem = s.mem ∧ left t rows ∧
         (rowBlock t src).tracking = true ∧ (rowBlock t src).dirty = []) ∧
       (fwArg s 1 = 1 → ∃ t, exec .migcmdCopy s = .next t ∧ left t (a.rowsLeft.drop 1) ∧
         t.mem = (moveRows f src dst (a.rowsLeft.take 1) s).mem) ∧
       (st ≠ 1 → stopped .migcmdFinal) ∧
       (st = 1 → ∃ t, exec .migcmdFinal s = .next t ∧ staged t 2 ∧ tget (t.func f).map 0 key = entryFor t dst ∧
         t.mem = (moveRows f src dst (rowBlock s src).dirty s).mem ∧ (rowBlock t src).tracking = false) ∧
       (st ≠ 2 → stopped .migcmdRelease) ∧
       (st = 2 → ∃ t, exec .migcmdRelease s = .next t ∧ staged t 3 ∧ (rowBlock t src).bound = false)) ∧
     (fn.amend = none → stopped .migcmdCommit) ∧
     ∀ a, fn.amend = some a →
       let done := a.active && (List.range a.moves.length).all (fun k => tget a.stage 0 k == 3)
       (done = false → stopped .migcmdCommit) ∧
       (done = true → ∃ t, exec .migcmdCommit s = .next t ∧ (t.func f).amend = none ∧
         (t.func f).amendDone = fn.amendDone + 1 ∧ t.replies = s.replies ++ [(f, 1 :: leBytes 4 a.id)]))

/-! ## Power and the outside -/

/-- R285, R286, R303, R356, R444, R464 to R466, R469 to R471: a passed self-test enters service with everything else lost, a failed
one the safe state with its record; power loss and a trip lose all state; a throttle step moves by one or to stopped; a host's write
reaches the function's own memory or nothing, and a write of a TAIL wakes the agents; an evicted line's dirty bytes go home, and a
translation is forgotten; symbols go bad; a link comes up or not, and down; a partner's access is answered only through the domain
table and within the stack extent; its refusal of a store marks the team. The reply's first byte, a link's free outcome, the order
in which a partner's access is tested and a throttle request out of order are the model's choices (logs 74, 87, 88, 90 to 94). -/
def Obligations.OutsideEvents : Prop :=
  (∀ (test : List Nat) (sensor : Nat) (s : State),
    let lost := fun (t : State) (p : Power) => t.power = p ∧ t.cores = [] ∧ t.teams = [] ∧ t.groups = [] ∧ t.units = [] ∧ t.mem = [] ∧
      t.rowBlocks = [] ∧ t.agenda = [] ∧ t.who = none
    (test = [] → ∃ t, exec (.powerOn test) s = .next t ∧ lost t .service ∧ (t.func 0).enabled = true ∧
      (∃ k : KeyTriple, ∀ x < Config.stackCount, keySlot t x 0 = some k) ∧ t.csr = [(0x011, 6)] ∧ ∀ f, f ≠ 0 → t.func f = {}) ∧
    (∀ step r, test = step :: r → ∃ t, exec (.powerOn test) s = .next t ∧ lost t .safe ∧ t.funcs = [] ∧
      tget t.csr 0 0x011 = word (step % 8) ∧
      tget t.csr 0 0x012 = word (1 + step % 8 * 0x10000 + r.getD 0 0 % 256 * 0x1000000) ∧
      tget t.csr 0 0x013 = word (r.getD 1 0) ∧ tget t.csr 0 0x014 = word (r.getD 2 0) ∧ tget t.csr 0 0x015 = 0) ∧
    (∃ t, exec .powerLoss s = .next t ∧ lost t .off ∧ t.funcs = []) ∧
    ∃ t, exec (.thermalTrip sensor) s = .next t ∧ lost t .tripped ∧ t.funcs = []) ∧
  (∀ (d n f a line core page : Nat) (symbols : List (Nat × Nat)) (bs : List Byte) (s : State),
    let cur := tget s.domains 0 d
    let steps := (s.power == .service || s.power == .safe || s.power == .testing) && decide (d < 73) &&
      (n == 5 || (n == cur + 1 && decide (n ≤ 5)) || n + 1 == cur)
    let may := hostMay s f && !bs.isEmpty && agMay s f a bs.length
    let wrote := homeWrite 0 ((span a bs.length).zip bs) s
    (steps = true → Becomes (.throttle d n) s { s with domains := tput s.domains d n }) ∧
    (steps = false → Becomes (.throttle d n) s s) ∧
    (may = false → Becomes (.hostWrite f a bs) s s) ∧
    (may = true → tailsIn wrote f a bs.length = [] → Becomes (.hostWrite f a bs) s wrote) ∧
    -- a write of one queue's TAIL wakes the agents as TAIL does (R46, R49)
    (∀ q x, may = true → tailsIn wrote f a bs.length = [q] → agCause wrote f (qHdr wrote f q) 64 = none →
      let c := leadCore wrote f
      let w := agTouch c (qHdr wrote f q) 64 wrote
      let z := agTouch c (entryAt w f q) 8 w
      nextEntry w f q = some x → agentRangeBad w (entryAt w f q) 8 = false →
      (x / 2 ^ 56 = 0 → Becomes (.hostWrite f a bs) s (z.due [fw c f (.admission c f q)])) ∧
      (x / 2 ^ 56 = 16 → Becomes (.hostWrite f a bs) s (z.due [fw c f (.loadRecord c f q)]))) ∧
    (∃ t, exec (.eviction (.l1 core line)) s = .next t ∧ t.mem = (writeBack core (fun h _ => h / 64 == line) s).mem ∧
      ∀ x ∈ (t.core core).l1, x.1 / 64 ≠ line) ∧
    -- the one dirty byte of an evicted line reaches its home (R382)
    (∀ h b, MemoryOk s → hTarget h = 1 → h / 64 = line → hIsSpad h = false → b.dirty = true →
      (s.core core).l1.filter (fun x => x.1 / 64 == line) = [(h, some b)] →
      ∃ t, exec (.eviction (.l1 core line)) s = .next t ∧ readByte t.mem h = b.val) ∧
    (∃ t, exec (.eviction (.tlb core f page)) s = .next t ∧ t.mem = s.mem ∧ ∀ x ∈ (t.core core).tlb, otherPage f page x = true) ∧
    (∃ t, exec (.eviction (.l2tlb core f page)) s = .next t ∧ t.mem = s.mem ∧
      ∀ x ∈ tget t.l2tlb [] core, otherPage f page x = true) ∧
    (∃ t, exec (.eviction (.shared line)) s = .next t ∧ t.mem = s.mem ∧
      ∀ x ∈ t.resident, x.1 = line → ∃ y, x.2 = some y ∧ y ≠ []) ∧
    (a < Config.stackBytes → ∃ t, exec (.softError a symbols) s = .next t ∧ t.mem = s.mem ∧
      errorsAt t a = addErrors (errorsAt s a) (symbols.map (fun x => (x.1, x.2 % 256))) ∧
      (∀ p v, symbols = [(p, v)] → errorsAt s a = [] → p < 72 → 0 < v → v < 256 → errorsAt t a = [(p, v)]) ∧
      ∀ k, k / 64 ≠ a / 64 → errorsAt t k = errorsAt s k) ∧
    (∃ t, exec (.linkStart d) s = .next t ∧ t.mem = s.mem ∧ t.funcs = s.funcs ∧
      tget t.linkUp false d = (Config.freeWord s.free).getLsbD 0) ∧
    (∃ t, exec (.linkDown d) s = .next t ∧ t.mem = s.mem ∧ tget t.linkUp false d = false)) ∧
  (∀ (r : RemoteReq) (s : State),
    let u := if tget s.linkUp false r.dom then countFlits s else s
    let owner := if u.power == .service && tget u.linkUp false r.dom then domainOwner u r.dom r.fn else none
    let refused := fun (g : Nat) => Becomes (.remoteAccess r) s (reply g false (leBytes 2 cRemoteFail) u)
    (owner = none → refused 0) ∧
    (∀ g, owner = some g → (span r.addr (opSize r.op)).mapM (stackHome u g) = none → refused g) ∧
    ∀ g hs, owner = some g → (span r.addr (opSize r.op)).mapM (stackHome u g) = some hs →
      (∀ n v, r.op = .load n → checkHomes hs u = (none, v) →
        Becomes (.remoteAccess r) s (reply g true (hs.map (homeByte v)) (reachHomes hs v))) ∧
      (∀ n c v, r.op = .load n → checkHomes hs u = (some c, v) → Becomes (.remoteAccess r) s (reply g false (leBytes 2 c) v)) ∧
      (∀ bs, r.op = .store bs → Becomes (.remoteAccess r) s (reply g true [] (homeWrite (remoteWriter r) (hs.zip bs) (reachHomes hs u)))) ∧
      (∀ op wide x y v, r.op = .atomic op wide x y → op ≠ aStrl → checkHomes hs u = (none, v) →
        let p := remoteAtomic op wide x.toNat y.toNat (remoteWriter r) hs (reachHomes hs v)
        Becomes (.remoteAccess r) s (reply g true (leBytes (if wide then 8 else 4) p.1) p.2))) ∧
  ∀ (core : Nat) (ok : Bool) (s : State),
    (s.outStores.find? (fun o => o.core == core) = none → Becomes (.remoteStoreAck core ok) s s) ∧
    ∀ o, s.outStores.find? (fun o => o.core == core) = some o →
      ∃ t, exec (.remoteStoreAck core ok) s = .next t ∧ t.outStores = s.outStores.erase o ∧ t.mem = s.mem ∧
        (ok = false → o.team < 0x100000 → (tget s.teams {} o.team).status ≠ .free →
          (tget t.teams {} o.team).remoteFail = true) ∧
        (ok = true → t.teams = s.teams)

/-! ## Decoding, issuing and the whole machine -/

/-- R142 to R154, R350: decoding the encoding of a well-formed instruction that has words of its own gives that instruction,
whatever words follow it, at every value of its fields; of the rows that share one word it gives the row the word itself names (R58,
R392, R397). The same holds of every microword without a reserved value. -/
def Obligations.RoundTrip : Prop :=
  (∀ (i : Instr) (more : List Word), wellFormed i = true → encode i ≠ [] →
    (∀ m, i ≠ .next m ∧ i ≠ .loop m ∧ i ≠ .close m ∧ i ≠ .halt m ∧ i ≠ .waitbc m ∧ i ≠ .flag m) →
    (∀ w, i ≠ .unassignedEncoding w ∧ i ≠ .tgt w) → decodeWords (encode i ++ more) = .ok (canon i)) ∧
  ∀ (m : Micro) (lo hi : Word), ∀ p ∈ ([(0, .next m), (1, .loop m), (2, .close m), (3, .halt m), (4, .waitbc m), (5, .flag m)] :
    List (Nat × Instr)), microOk p.1 m = true → encode p.2 = [lo, hi] → decodeMicroword (hi ++ lo) = some p.2

/-- R142 to R149: words written out field by field decode to what they stand for. -/
def Obligations.DecodeWords : Prop :=
  ∀ p ∈ ([
    ([0x00#6 ++ 0#5 ++ 0#6 ++ 0#6 ++ 0#6 ++ 0#3], .nop),
    ([0x01#6 ++ 0x3FFFFFF#26], .br 0x3FFFFFF),
    ([0x06#6 ++ 0#6 ++ 0#6 ++ 4#14], .mode 0 4),
    ([0x07#6 ++ 5#6 ++ 0#6 ++ 0#10 ++ 1#1 ++ 0#1 ++ 2#2], .setw ⟨5, true, false, 2⟩),
    ([0x0A#6 ++ 7#6 ++ 0#6 ++ 0#14, 0xDEADBEEF#32], .movl 7 0xDEADBEEF),
    ([0x10#6 ++ 1#5 ++ 1#6 ++ 2#6 ++ 3#6 ++ 1#1 ++ 0#1 ++ 0#1], .saluSub ⟨1, 2, 3, true, false⟩),
    ([0x14#6 ++ 2#5 ++ 4#6 ++ 5#6 ++ 6#6 ++ 0#1 ++ 1#1 ++ 1#1], .valuMul ⟨4, 5, 6, false, true, true⟩),
    ([0x19#6 ++ 2#2 ++ 1#6 ++ 2#6 ++ 3#6 ++ 4#6], .fnma ⟨1, 2, 3, 4⟩),
    ([0x20#6 ++ 3#5 ++ 8#6 ++ 9#6 ++ 10#6 ++ 0#3], .shxr ⟨8, 9, 10, false, false, false⟩),
    ([0x24#6 ++ 4#3 ++ 1#6 ++ 2#6 ++ 15#4 ++ 0x7F#7], .ld ⟨4, 1, 2, 15, 0x7F⟩),
    ([0x29#6 ++ 9#5 ++ 2#6 ++ 3#6 ++ 1#4 ++ 0#3 ++ 0#2], .atomCas ⟨2, 3, 1, 0, 0⟩),
    ([0x2A#6 ++ 1#5 ++ 0#6 ++ 3#6 ++ 0#6 ++ 0#3], .bar 3),
    ([0x30#6 ++ 0#5 ++ 2#6 ++ 8#6 ++ 0#6 ++ 0#3], .copy ⟨2, 1, false⟩),
    ([0x36#6 ++ 2#5 ++ 1#6 ++ 2#6 ++ 3#6 ++ 0#3], .bkwait ⟨1, 2, 3, false, false⟩),
    ([0x3C#6 ++ 4#5 ++ 1#6 ++ 2#6 ++ 0#6 ++ 0#3], .csrrd 1 2)] : List (List Word × Instr)),
    decodeWords p.1 = .ok p.2

/-- R131, R153, R175, R351: a step takes the oldest step that is due and can be taken, else the instruction at the PC of the issuer
whose turn it is: the words that stand there, decoded, with the row that STAGE, the scalar or HANDLING picks. A gang that had to
wait has not issued, and its group's current gang is the one it was (R176). R138, R165: a fetch from a slot that is not LANDED
traps, and so does a word that the decoder refuses. The order of due steps and of issuers is the model's choice (logs 11, 12). -/
def Obligations.StepRuns : Prop :=
  ∀ (s : State),
    (∀ d later, pickDue s s.agenda = some (d, later) → step s = exec d.instr (startDue d later s)) ∧
    (pickDue s s.agenda = none →
      (∀ ref id e ws i t, s.turn = some (.ctx ref id) →
        let u := takeTurn (.ctx ref id) { s with turn := none, waited := false, who := some (.ctx ref id), request := none }
        mkEnv u = some e → fetchWords u e = .ok ws → decodeWords ws = .ok i → exec (selectRow u e i) u = .next t →
        (t.waited = false → step s = .next t) ∧
        (t.waited = true → step s = .next (keepTurn (.ctx ref id) { s with turn := none, waited := false } t))) ∧
      (∀ ref id others e ws i t, s.turn = none → (issueOrder s).filter (whoRuns s) = .ctx ref id :: others →
        let u := takeTurn (.ctx ref id) { s with waited := false, who := some (.ctx ref id), request := none }
        mkEnv u = some e → fetchWords u e = .ok ws → decodeWords ws = .ok i → exec (selectRow u e i) u = .next t →
        t.waited = false → step s = .next t) ∧
      ∀ k others i t, s.turn = none → (issueOrder s).filter (whoRuns s) = .unit k :: others →
        decodeMicroword (tget (s.unit k).store 0x6000000000000000 (s.unit k).pc) = some i →
        exec i { s with waited := false, who := some (.unit k), request := none } = .next t → t.waited = false →
        step s = .next t) ∧
    -- a fetch that meets no LANDED slot traps with the cause of R138, and a word that the decoder refuses with the first of R165
    (pickDue s s.agenda = none → ∀ ref id others e, s.turn = none → (issueOrder s).filter (whoRuns s) = .ctx ref id :: others →
      let u := takeTurn (.ctx ref id) { s with waited := false, who := some (.ctx ref id), request := none }
      let traps := fun (c : Nat) => ∃ t, step s = .next t ∧ Traps e c e.reportLane 0 e.gang.pc u t
      mkEnv u = some e →
      (∀ c, fetchWords u e = .error c → c < 0x1F0 → c ≠ cBreakpoint → traps c) ∧
      ∀ w more x, fetchWords u e = .ok (w :: more) → decodeWords (w :: more) = .error x →
        traps ((absentCause e (fM w).toNat (minorOf w)).getD cReserved)) ∧
    (∀ e, e.isAgent = false →
      let l := lslot e.team (pcSlot e.gang.pc)
      let formed := e.gang.pc.toNat < 0x40000 ∧ e.gang.pc.toNat % 4 = 0
      (¬ formed → fetchWords s e = .error cSegAbsent) ∧
      (formed → l.st = .unbound ∨ l.st = .landing → fetchWords s e = .error cSegAbsent) ∧
      (formed → l.st = .failed → fetchWords s e = .error l.cause)) ∧
    ∀ e, e.isAgent = false → e.gang.pc.toNat < 0x40000 → e.gang.pc.toNat % 4 = 0 →
      let l := lslot e.team (pcSlot e.gang.pc)
      l.st = .landed → e.core = e.lower → ∃ more, fetchWords s e = .ok
        (tget (s.core e.core).imem 0 (l.phys * 1024 + pcWord e.gang.pc) :: more)

/-- Every instruction of a context, by its word w: major M = w[31:26] and, where the major has one, minor F. A stall of R93 holds
any of them. One that the running profile lacks traps first (R164, R22); then one that the agent slot, or only it, may execute
(R475, R56), one that names a register outside the partition (R35), one a W16 team may not use (R164), and one that needs formed
groups (R116). An engine instruction of part of a group traps (R476). A vector instruction with no active lane does nothing (R8).
The scalar and the typed vector instructions wait on a pending operand, and wait or trap on an empty source by its policy (R152,
R174). -/
def Obligations.GatesTrapOrWait : Prop :=
  (∀ (i : Instr) (w : Word) (more : List Word) (s : State) (e : Env),
    contextForm i = true → encode i = w :: more → wellFormed i = true → s.request = none →
    let M := (fM w).toNat
    let F := minorOf w
    let traps := fun (c : Nat) => ∃ t, exec i s = .next t ∧ Traps e c e.reportLane 0 e.gang.pc s t
    let inside := ∀ k ∈ namedRegs i, k < e.team.regs
    let anywhere := M ∈ [1, 2, 4, 6, 0x0B, 0x10, 0x11, 0x12, 0x13, 0x26, 0x27, 0x2B] ∨ (M = 0x0A ∧ namedRegs i = []) ∨
      scalarAtom i = true ∨ (M = 0x2A ∧ F = 0)
    let agentOnly := M = 0x3C ∨ (M = 0 ∧ F = 9)
    let agentMay := anywhere ∨ agentOnly ∨ (M = 0 ∧ F ∈ [0, 2, 6]) ∨ (M = 0x21 ∧ F ∈ [6, 7])
    let scalarMay := anywhere ∨ agentOnly ∨ (M = 0 ∧ F ∈ [0, 1, 2, 6]) ∨ M ∈ [7, 9]
    let absent : Option Nat :=
      if e.profileL then
        if M = 7 then some cSetwTwice
        else if M ∈ [9, 0x10, 0x11, 0x12, 0x13, 0x1C, 0x1D, 0x26, 0x27, 0x2B, 0x2C, 0x30, 0x31, 0x32, 0x33, 0x34, 0x36, 0x38, 0x39, 0x3C]
          then some cIllegalMajor
        else if M = 0 ∧ F = 9 then some cIllegalMinor
        else none
      else if isStack e.core = true ∧ M ∈ [0x1D, 0x32, 0x33, 0x34, 0x38, 0x39] then some cIllegalMajor
      else if isStack e.core = false ∧ M = 0x36 then some cIllegalMajor
      else if (M = 0x14 ∧ F ∈ [25, 26]) ∨ (M = 0x18 ∧ F = 13) then some cIllegalMinor
      else none
    (mkEnv s = some e → e.stalled = true → ∃ t, exec i s = .next t ∧ Waits s t) ∧
    (Issues s e →
      (∀ c, absent = some c → traps c) ∧
      (absent = none → e.isAgent = true → ¬ agentMay → traps cPriv) ∧
      (absent = none → e.isAgent = false → agentOnly → traps cPriv) ∧
      (absent = none → e.isAgent = false → ¬ agentOnly → ¬ inside → traps cRegRange) ∧
      (absent = none → inside → e.profileL = true → legacyForm i = true → traps cLegacy) ∧
      (absent = none → inside → e.profileL = false → e.isScalar = true → ¬ scalarMay → traps cBeforeSetw) ∧
      (absent = none → inside → e.profileL = false → e.isGroup = true → M ∈ [0x2C, 0x30, 0x32, 0x34, 0x36, 0x38, 0x39] →
        (maskOf e.active ≠ e.gang.lanes ∨ e.gang.lanes ≠ e.group.live) → traps cEnginePartial) ∧
      (absent = none → inside → (e.profileL = true → legacyForm i = false) → e.isGroup = true → e.active = [] →
        M ∈ [0x14, 0x15, 0x16, 0x17, 0x18, 0x19, 0x1A, 0x1B, 0x1C, 0x20, 0x24, 0x25, 0x28] ∨ (M = 0x1D ∧ F ≠ 5) ∨
          (M = 0x29 ∧ scalarAtom i = false) ∨ (M = 0x21 ∧ F ∈ [1, 2, 3, 4, 5]) ∨
          (M = 0x0A ∧ namedRegs i ≠ [] ∧ pcWord e.gang.pc ≠ 1023) →
        ∃ t, exec i s = .next t ∧ Ran e (more.length + 1) s t))) ∧
  ∀ (r : SArgs) (u : UArgs) (m : IArgs) (c : ScmpArgs) (v : RArgs) (q : QArgs) (s : State) (e : Env), Issues s e →
    let t := mrType e.ctx.mr
    (e.profileL = false →
      (∀ i ∈ [Instr.saluAdd r, .saluSub r, .saluMul r, .saluMulhi r, .mulhu r, .saluAnd r, .saluOr r, .saluXor r, .saluAndn r,
        .saluShl r, .saluShr r, .saluSar r, .saluMin r, .saluMax r, .minu r, .maxu r],
        Blocks i s e [srcS r.a.toNat r.qa, srcS r.b.toNat r.qb, dstS r.d.toNat]) ∧
      (∀ i ∈ [Instr.add64 r, .sub64 r], Blocks i s e [srcS r.a.toNat r.qa, srcS (r.a.toNat + 1) r.qa, srcS r.b.toNat r.qb,
        srcS (r.b.toNat + 1) r.qb, dstS r.d.toNat, dstS (r.d.toNat + 1)]) ∧
      (∀ i ∈ [Instr.saluClz u, .saluPopc u, .saluBrev u, .saluMov u], Blocks i s e [srcS u.a.toNat u.qa, dstS u.d.toNat]) ∧
      Blocks (.saddi m) s e [srcS m.a.toNat, dstS m.d.toNat] ∧
      Blocks (.sli m.d m.imm) s e [dstS m.d.toNat] ∧
      Blocks (.scmp c) s e [srcS c.a.toNat c.qa, srcS c.b.toNat c.qb]) ∧
    (VecIssuer s e (rNamed v) → (e.profileL = true → v.x = false) →
      ∀ p ∈ ([(.valuAdd v, intType t), (.valuSub v, intType t), (.valuMul v, intType t), (.valuMulhi v, intType t),
        (.valuMin v, intType t), (.valuMax v, intType t), (.valuShl v, intType t), (.valuShr v, intType t), (.valuSar v, intType t),
        (.rotl v, intType t), (.addsat v, intType t), (.subsat v, intType t), (.valuAnd v, t ≤ 14), (.valuOr v, t ≤ 14),
        (.valuXor v, t ≤ 14), (.valuAndn v, t ≤ 14), (.bfe v, t ≤ 3), (.fadd v, okFloat t), (.fsub v, okFloat t),
        (.fmul v, okFloat t), (.fmin v, okFloat t), (.fmax v, okFloat t)] : List (Instr × Bool)),
        Fits e p.2 v.d.toNat (rSrcs v) → Blocks p.1 s e (typedOpnds e v.d.toNat (rSrcs v))) ∧
    (VecIssuer s e [u.d.toNat, u.a.toNat] →
      ∀ p ∈ ([(.valuClz u, intType t), (.valuPopc u, intType t), (.valuBrev u, intType t), (.abs u, intType t), (.neg u, intType t),
        (.valuMov u, t ≤ 14), (.fabs u, okFloat t), (.fneg u, okFloat t), (.frcp u, okFloat t), (.frsq u, okFloat t),
        (.fsqrt u, okFloat t), (.fex2 u, okFloat t), (.flg2 u, okFloat t), (.frnd u, okFloat t)] : List (Instr × Bool)),
        Fits e p.2 u.d.toNat [.v u.a.toNat u.qa] → Blocks p.1 s e (typedOpnds e u.d.toNat [.v u.a.toNat u.qa])) ∧
    (VecIssuer s e (qNamed q) →
      ∀ p ∈ ([(.mad q, intType t), (.madhi q, t ≤ 3), (.fma q, okFloat t), (.fms q, okFloat t), (.fnma q, okFloat t),
        (.fnms q, okFloat t)] : List (Instr × Bool)),
        Fits e p.2 q.d.toNat (qSrcs q) → Blocks p.1 s e (typedOpnds e q.d.toNat (qSrcs q)))

/-- R464: right after reset the self-test is about to run: no function is enabled, nothing runs, nothing stands in memory, and its
first step enters service. That reset leaves the pass as the outcome to come, and memory reading zero, is the model's choice (logs
2, 3). -/
def Obligations.ResetThenService : Prop :=
  let s := State.reset
  s.power = .testing ∧ s.who = none ∧ (∀ f, (s.func f).enabled = false) ∧ (∀ c, s.core c = {}) ∧
    (∀ c sl, (s.team c sl).status = .free) ∧ (∀ c sl g, (s.group c sl g).gangs = []) ∧ (∀ k, (s.unit k).run = .idle) ∧
    s.mem = [] ∧ MemoryOk s ∧ Settled s ∧
    ∃ t, step s = .next t ∧ t.power = .service ∧ (t.func 0).enabled = true ∧ t.csr = [(0x011, 6)] ∧ t.mem = []

/-- An invariant of every step: no instruction is half executed between steps. No step refuses an instruction, and every instruction
of an issuer answers a next state whatever its operands and the data it meets: ordinary data never ends a run (R9, R172, R388). -/
def Obligations.StepsSettle : Prop :=
  (∀ s t, Settled s → step s = .next t → Settled t) ∧
  (∀ s r, step s ≠ .refused r) ∧
  ∀ (i : Instr) (s : State),
    let micro := ∃ m, i = .next m ∨ i = .loop m ∨ i = .close m ∨ i = .halt m ∨ i = .waitbc m ∨ i = .flag m
    (¬ micro → mkEnv s ≠ none → ∃ t, exec i s = .next t ∧ t.who = none) ∧
    (micro → (∃ k, s.who = some (.unit k)) → ∃ t, exec i s = .next t ∧ t.who = none)

/-- R289, R300, R382: whatever a step does, the byte memories keep their one canonical form: memory lists no byte that equals what
an unlisted address reads as (log 3, the model's choice). Nor does it give two gangs of a group one number, where the group's next
number was above all of theirs. -/
def Obligations.MemoryKept : Prop :=
  ∀ s t, step s = .next t → (MemoryOk s → MemoryOk t) ∧ (GangsNumbered s → GangsNumbered t)
end

