-- ==== Sys2Proof/Laws/Exec.lean ====
section
/-! SUPPORT. Laws/Exec.lean: what `exec` runs for each constructor, so that no proof unfolds the dispatch. -/

namespace Sys2Proof.Machine

@[simp] theorem exec_nop (s : State) : exec .nop s = execNop s := rfl
@[simp] theorem exec_exit (s : State) : exec .exit s = execExit s := rfl
@[simp] theorem exec_yield (s : State) : exec .yield s = execYield s := rfl
@[simp] theorem exec_ret (s : State) : exec .ret s = execRet s := rfl
@[simp] theorem exec_join (a : BitVec 3) (s : State) : exec (.join a) s = execJoin a s := rfl
@[simp] theorem exec_leave (a : BitVec 3) (s : State) : exec (.leave a) s = execLeave a s := rfl
@[simp] theorem exec_bkpt (s : State) : exec .bkpt s = execBkpt s := rfl
@[simp] theorem exec_rcommit (s : State) : exec .rcommit s = execRcommit s := rfl
@[simp] theorem exec_jmpr (r : SrcArgs) (s : State) : exec (.jmpr r) s = execJmpr r s := rfl
@[simp] theorem exec_fail (s : State) : exec .fail s = execFail s := rfl
@[simp] theorem exec_resume (s : State) : exec .resume s = execResume s := rfl
@[simp] theorem exec_handler (s : State) : exec .handler s = execHandler s := rfl
@[simp] theorem exec_hold (s : State) : exec .hold s = execHold s := rfl
@[simp] theorem exec_step (s : State) : exec .step s = execStep s := rfl
@[simp] theorem exec_waitPage (s : State) : exec .waitPage s = execWaitPage s := rfl
@[simp] theorem exec_abort (s : State) : exec .abort s = execAbort s := rfl
@[simp] theorem exec_br (i : BitVec 26) (s : State) : exec (.br i) s = execBr i s := rfl
@[simp] theorem exec_brx (b : BrxArgs) (ts : List Word) (s : State) : exec (.brx b ts) s = execBrx b ts s := rfl
@[simp] theorem exec_tok (j : BitVec 3) (i : BitVec 14) (s : State) : exec (.tok j i) s = execTok j i s := rfl
@[simp] theorem exec_jmpf (i : BitVec 26) (s : State) : exec (.jmpf i) s = execJmpf i s := rfl
@[simp] theorem exec_call (i : BitVec 26) (s : State) : exec (.call i) s = execCall i s := rfl
@[simp] theorem exec_mode (d : BitVec 6) (i : BitVec 14) (s : State) : exec (.mode d i) s = execMode d i s := rfl
@[simp] theorem exec_setw (r : SetwArgs) (s : State) : exec (.setw r) s = execSetw r s := rfl
@[simp] theorem exec_formGroups (core : Nat) (slot : Nat) (s : State) :
    exec (.formGroups core slot) s = execFormGroups core slot s := rfl
@[simp] theorem exec_cfetch (d : BitVec 6) (a : BitVec 6) (s : State) : exec (.cfetch d a) s = execCfetch d a s := rfl
@[simp] theorem exec_cfetchWait (d : BitVec 6) (a : BitVec 6) (s : State) :
    exec (.cfetchWait d a) s = execCfetchWait d a s := rfl
@[simp] theorem exec_cland (d : BitVec 6) (s : State) : exec (.cland d) s = execCland d s := rfl
@[simp] theorem exec_landed (core : Nat) (isl : Nat) (s : State) : exec (.landed core isl) s = execLanded core isl s := rfl
@[simp] theorem exec_movl (d : BitVec 6) (lit : Word) (s : State) : exec (.movl d lit) s = execMovl d lit s := rfl
@[simp] theorem exec_movlScalar (d : BitVec 6) (lit : Word) (s : State) :
    exec (.movlScalar d lit) s = execMovlScalar d lit s := rfl
@[simp] theorem exec_trap (n : BitVec 4) (s : State) : exec (.trap n) s = execTrap n s := rfl
@[simp] theorem exec_handlerReturn (s : State) : exec .handlerReturn s = execHandlerReturn s := rfl
@[simp] theorem exec_saluAdd (r : SArgs) (s : State) : exec (.saluAdd r) s = execSaluAdd r s := rfl
@[simp] theorem exec_saluSub (r : SArgs) (s : State) : exec (.saluSub r) s = execSaluSub r s := rfl
@[simp] theorem exec_saluMul (r : SArgs) (s : State) : exec (.saluMul r) s = execSaluMul r s := rfl
@[simp] theorem exec_saluMulhi (r : SArgs) (s : State) : exec (.saluMulhi r) s = execSaluMulhi r s := rfl
@[simp] theorem exec_mulhu (r : SArgs) (s : State) : exec (.mulhu r) s = execMulhu r s := rfl
@[simp] theorem exec_saluAnd (r : SArgs) (s : State) : exec (.saluAnd r) s = execSaluAnd r s := rfl
@[simp] theorem exec_saluOr (r : SArgs) (s : State) : exec (.saluOr r) s = execSaluOr r s := rfl
@[simp] theorem exec_saluXor (r : SArgs) (s : State) : exec (.saluXor r) s = execSaluXor r s := rfl
@[simp] theorem exec_saluAndn (r : SArgs) (s : State) : exec (.saluAndn r) s = execSaluAndn r s := rfl
@[simp] theorem exec_saluShl (r : SArgs) (s : State) : exec (.saluShl r) s = execSaluShl r s := rfl
@[simp] theorem exec_saluShr (r : SArgs) (s : State) : exec (.saluShr r) s = execSaluShr r s := rfl
@[simp] theorem exec_saluSar (r : SArgs) (s : State) : exec (.saluSar r) s = execSaluSar r s := rfl
@[simp] theorem exec_saluMin (r : SArgs) (s : State) : exec (.saluMin r) s = execSaluMin r s := rfl
@[simp] theorem exec_saluMax (r : SArgs) (s : State) : exec (.saluMax r) s = execSaluMax r s := rfl
@[simp] theorem exec_minu (r : SArgs) (s : State) : exec (.minu r) s = execMinu r s := rfl
@[simp] theorem exec_maxu (r : SArgs) (s : State) : exec (.maxu r) s = execMaxu r s := rfl
@[simp] theorem exec_saluClz (r : UArgs) (s : State) : exec (.saluClz r) s = execSaluClz r s := rfl
@[simp] theorem exec_saluPopc (r : UArgs) (s : State) : exec (.saluPopc r) s = execSaluPopc r s := rfl
@[simp] theorem exec_saluBrev (r : UArgs) (s : State) : exec (.saluBrev r) s = execSaluBrev r s := rfl
@[simp] theorem exec_saluMov (r : UArgs) (s : State) : exec (.saluMov r) s = execSaluMov r s := rfl
@[simp] theorem exec_add64 (r : SArgs) (s : State) : exec (.add64 r) s = execAdd64 r s := rfl
@[simp] theorem exec_sub64 (r : SArgs) (s : State) : exec (.sub64 r) s = execSub64 r s := rfl
@[simp] theorem exec_saddi (r : IArgs) (s : State) : exec (.saddi r) s = execSaddi r s := rfl
@[simp] theorem exec_sli (d : BitVec 6) (i : BitVec 14) (s : State) : exec (.sli d i) s = execSli d i s := rfl
@[simp] theorem exec_scmp (r : ScmpArgs) (s : State) : exec (.scmp r) s = execScmp r s := rfl
@[simp] theorem exec_valuAdd (r : RArgs) (s : State) : exec (.valuAdd r) s = execValuAdd r s := rfl
@[simp] theorem exec_valuSub (r : RArgs) (s : State) : exec (.valuSub r) s = execValuSub r s := rfl
@[simp] theorem exec_valuMul (r : RArgs) (s : State) : exec (.valuMul r) s = execValuMul r s := rfl
@[simp] theorem exec_valuMulhi (r : RArgs) (s : State) : exec (.valuMulhi r) s = execValuMulhi r s := rfl
@[simp] theorem exec_valuMin (r : RArgs) (s : State) : exec (.valuMin r) s = execValuMin r s := rfl
@[simp] theorem exec_valuMax (r : RArgs) (s : State) : exec (.valuMax r) s = execValuMax r s := rfl
@[simp] theorem exec_valuAnd (r : RArgs) (s : State) : exec (.valuAnd r) s = execValuAnd r s := rfl
@[simp] theorem exec_valuOr (r : RArgs) (s : State) : exec (.valuOr r) s = execValuOr r s := rfl
@[simp] theorem exec_valuXor (r : RArgs) (s : State) : exec (.valuXor r) s = execValuXor r s := rfl
@[simp] theorem exec_valuAndn (r : RArgs) (s : State) : exec (.valuAndn r) s = execValuAndn r s := rfl
@[simp] theorem exec_valuShl (r : RArgs) (s : State) : exec (.valuShl r) s = execValuShl r s := rfl
@[simp] theorem exec_valuShr (r : RArgs) (s : State) : exec (.valuShr r) s = execValuShr r s := rfl
@[simp] theorem exec_valuSar (r : RArgs) (s : State) : exec (.valuSar r) s = execValuSar r s := rfl
@[simp] theorem exec_rotl (r : RArgs) (s : State) : exec (.rotl r) s = execRotl r s := rfl
@[simp] theorem exec_valuClz (r : UArgs) (s : State) : exec (.valuClz r) s = execValuClz r s := rfl
@[simp] theorem exec_valuPopc (r : UArgs) (s : State) : exec (.valuPopc r) s = execValuPopc r s := rfl
@[simp] theorem exec_valuBrev (r : UArgs) (s : State) : exec (.valuBrev r) s = execValuBrev r s := rfl
@[simp] theorem exec_abs (r : UArgs) (s : State) : exec (.abs r) s = execAbs r s := rfl
@[simp] theorem exec_neg (r : UArgs) (s : State) : exec (.neg r) s = execNeg r s := rfl
@[simp] theorem exec_valuMov (r : UArgs) (s : State) : exec (.valuMov r) s = execValuMov r s := rfl
@[simp] theorem exec_sel (r : RArgs) (s : State) : exec (.sel r) s = execSel r s := rfl
@[simp] theorem exec_bfe (r : RArgs) (s : State) : exec (.bfe r) s = execBfe r s := rfl
@[simp] theorem exec_bfi (r : RArgs) (s : State) : exec (.bfi r) s = execBfi r s := rfl
@[simp] theorem exec_addsat (r : RArgs) (s : State) : exec (.addsat r) s = execAddsat r s := rfl
@[simp] theorem exec_subsat (r : RArgs) (s : State) : exec (.subsat r) s = execSubsat r s := rfl
@[simp] theorem exec_div (r : RArgs) (s : State) : exec (.div r) s = execDiv r s := rfl
@[simp] theorem exec_rem (r : RArgs) (s : State) : exec (.rem r) s = execRem r s := rfl
@[simp] theorem exec_vaddi (r : IArgs) (s : State) : exec (.vaddi r) s = execVaddi r s := rfl
@[simp] theorem exec_vcmp (r : VcmpArgs) (s : State) : exec (.vcmp r) s = execVcmp r s := rfl
@[simp] theorem exec_plogAnd (d : BitVec 3) (a : BitVec 3) (b : BitVec 3) (s : State) :
    exec (.plogAnd d a b) s = execPlogAnd d a b s := rfl
@[simp] theorem exec_plogOr (d : BitVec 3) (a : BitVec 3) (b : BitVec 3) (s : State) :
    exec (.plogOr d a b) s = execPlogOr d a b s := rfl
@[simp] theorem exec_plogXor (d : BitVec 3) (a : BitVec 3) (b : BitVec 3) (s : State) :
    exec (.plogXor d a b) s = execPlogXor d a b s := rfl
@[simp] theorem exec_plogAndn (d : BitVec 3) (a : BitVec 3) (b : BitVec 3) (s : State) :
    exec (.plogAndn d a b) s = execPlogAndn d a b s := rfl
@[simp] theorem exec_plogNot (d : BitVec 3) (a : BitVec 3) (s : State) : exec (.plogNot d a) s = execPlogNot d a s := rfl
@[simp] theorem exec_plogMov (d : BitVec 3) (a : BitVec 3) (s : State) : exec (.plogMov d a) s = execPlogMov d a s := rfl
@[simp] theorem exec_fadd (r : RArgs) (s : State) : exec (.fadd r) s = execFadd r s := rfl
@[simp] theorem exec_fsub (r : RArgs) (s : State) : exec (.fsub r) s = execFsub r s := rfl
@[simp] theorem exec_fmul (r : RArgs) (s : State) : exec (.fmul r) s = execFmul r s := rfl
@[simp] theorem exec_fmin (r : RArgs) (s : State) : exec (.fmin r) s = execFmin r s := rfl
@[simp] theorem exec_fmax (r : RArgs) (s : State) : exec (.fmax r) s = execFmax r s := rfl
@[simp] theorem exec_fabs (r : UArgs) (s : State) : exec (.fabs r) s = execFabs r s := rfl
@[simp] theorem exec_fneg (r : UArgs) (s : State) : exec (.fneg r) s = execFneg r s := rfl
@[simp] theorem exec_frcp (r : UArgs) (s : State) : exec (.frcp r) s = execFrcp r s := rfl
@[simp] theorem exec_frsq (r : UArgs) (s : State) : exec (.frsq r) s = execFrsq r s := rfl
@[simp] theorem exec_fsqrt (r : UArgs) (s : State) : exec (.fsqrt r) s = execFsqrt r s := rfl
@[simp] theorem exec_fex2 (r : UArgs) (s : State) : exec (.fex2 r) s = execFex2 r s := rfl
@[simp] theorem exec_flg2 (r : UArgs) (s : State) : exec (.flg2 r) s = execFlg2 r s := rfl
@[simp] theorem exec_frnd (r : UArgs) (s : State) : exec (.frnd r) s = execFrnd r s := rfl
@[simp] theorem exec_fdiv (r : RArgs) (s : State) : exec (.fdiv r) s = execFdiv r s := rfl
@[simp] theorem exec_fma (r : QArgs) (s : State) : exec (.fma r) s = execFma r s := rfl
@[simp] theorem exec_fms (r : QArgs) (s : State) : exec (.fms r) s = execFms r s := rfl
@[simp] theorem exec_fnma (r : QArgs) (s : State) : exec (.fnma r) s = execFnma r s := rfl
@[simp] theorem exec_fnms (r : QArgs) (s : State) : exec (.fnms r) s = execFnms r s := rfl
@[simp] theorem exec_mad (r : QArgs) (s : State) : exec (.mad r) s = execMad r s := rfl
@[simp] theorem exec_madhi (r : QArgs) (s : State) : exec (.madhi r) s = execMadhi r s := rfl
@[simp] theorem exec_madw (r : QArgs) (s : State) : exec (.madw r) s = execMadw r s := rfl
@[simp] theorem exec_cvt (t : BitVec 4) (r : UArgs) (s : State) : exec (.cvt t r) s = execCvt t r s := rfl
@[simp] theorem exec_cvth (h : Bool) (z : BitVec 4) (r : SArgs) (s : State) : exec (.cvth h z r) s = execCvth h z r s := rfl
@[simp] theorem exec_mmul (r : RArgs) (s : State) : exec (.mmul r) s = execMmul r s := rfl
@[simp] theorem exec_madd (r : RArgs) (s : State) : exec (.madd r) s = execMadd r s := rfl
@[simp] theorem exec_msub (r : RArgs) (s : State) : exec (.msub r) s = execMsub r s := rfl
@[simp] theorem exec_mred (r : UArgs) (s : State) : exec (.mred r) s = execMred r s := rfl
@[simp] theorem exec_nttb (r : RArgs) (s : State) : exec (.nttb r) s = execNttb r s := rfl
@[simp] theorem exec_modq (r : SrcArgs) (s : State) : exec (.modq r) s = execModq r s := rfl
@[simp] theorem exec_shfi (r : RArgs) (s : State) : exec (.shfi r) s = execShfi r s := rfl
@[simp] theorem exec_shup (r : RArgs) (s : State) : exec (.shup r) s = execShup r s := rfl
@[simp] theorem exec_shdn (r : RArgs) (s : State) : exec (.shdn r) s = execShdn r s := rfl
@[simp] theorem exec_shxr (r : RArgs) (s : State) : exec (.shxr r) s = execShxr r s := rfl
@[simp] theorem exec_vany (d : BitVec 3) (a : BitVec 3) (s : State) : exec (.vany d a) s = execVany d a s := rfl
@[simp] theorem exec_vall (d : BitVec 3) (a : BitVec 3) (s : State) : exec (.vall d a) s = execVall d a s := rfl
@[simp] theorem exec_ballot (d : BitVec 6) (a : BitVec 3) (s : State) : exec (.ballot d a) s = execBallot d a s := rfl
@[simp] theorem exec_radd (r : UArgs) (s : State) : exec (.radd r) s = execRadd r s := rfl
@[simp] theorem exec_rmin (r : UArgs) (s : State) : exec (.rmin r) s = execRmin r s := rfl
@[simp] theorem exec_rmax (r : UArgs) (s : State) : exec (.rmax r) s = execRmax r s := rfl
@[simp] theorem exec_fradd (r : UArgs) (s : State) : exec (.fradd r) s = execFradd r s := rfl
@[simp] theorem exec_frmin (r : UArgs) (s : State) : exec (.frmin r) s = execFrmin r s := rfl
@[simp] theorem exec_frmax (r : UArgs) (s : State) : exec (.frmax r) s = execFrmax r s := rfl
@[simp] theorem exec_scadd (r : UArgs) (s : State) : exec (.scadd r) s = execScadd r s := rfl
@[simp] theorem exec_scaddx (r : UArgs) (s : State) : exec (.scaddx r) s = execScaddx r s := rfl
@[simp] theorem exec_qapp (d : BitVec 6) (w : BitVec 4) (p : BitVec 3) (s : State) :
    exec (.qapp d w p) s = execQapp d w p s := rfl
@[simp] theorem exec_v2s (r : SArgs) (s : State) : exec (.v2s r) s = execV2s r s := rfl
@[simp] theorem exec_s2v (r : UArgs) (s : State) : exec (.s2v r) s = execS2v r s := rfl
@[simp] theorem exec_srd (d : BitVec 6) (n : BitVec 6) (s : State) : exec (.srd d n) s = execSrd d n s := rfl
@[simp] theorem exec_swr (n : BitVec 6) (r : SrcArgs) (s : State) : exec (.swr n r) s = execSwr n r s := rfl
@[simp] theorem exec_p2v (d : BitVec 6) (s : State) : exec (.p2v d) s = execP2v d s := rfl
@[simp] theorem exec_v2p (r : SrcArgs) (s : State) : exec (.v2p r) s = execV2p r s := rfl
@[simp] theorem exec_mrs (d : BitVec 6) (s : State) : exec (.mrs d) s = execMrs d s := rfl
@[simp] theorem exec_mrw (r : SrcArgs) (s : State) : exec (.mrw r) s = execMrw r s := rfl
@[simp] theorem exec_ld (r : MemArgs) (s : State) : exec (.ld r) s = execLd r s := rfl
@[simp] theorem exec_st (r : MemArgs) (s : State) : exec (.st r) s = execSt r s := rfl
@[simp] theorem exec_sld (r : MemArgs) (s : State) : exec (.sld r) s = execSld r s := rfl
@[simp] theorem exec_sst (r : MemArgs) (s : State) : exec (.sst r) s = execSst r s := rfl
@[simp] theorem exec_ldfe (r : LdfeArgs) (s : State) : exec (.ldfe r) s = execLdfe r s := rfl
@[simp] theorem exec_ldfeClear (r : LdfeArgs) (s : State) : exec (.ldfeClear r) s = execLdfeClear r s := rfl
@[simp] theorem exec_atomAdd (r : AtomArgs) (s : State) : exec (.atomAdd r) s = execAtomAdd r s := rfl
@[simp] theorem exec_atomMin (r : AtomArgs) (s : State) : exec (.atomMin r) s = execAtomMin r s := rfl
@[simp] theorem exec_atomMax (r : AtomArgs) (s : State) : exec (.atomMax r) s = execAtomMax r s := rfl
@[simp] theorem exec_atomMinu (r : AtomArgs) (s : State) : exec (.atomMinu r) s = execAtomMinu r s := rfl
@[simp] theorem exec_atomMaxu (r : AtomArgs) (s : State) : exec (.atomMaxu r) s = execAtomMaxu r s := rfl
@[simp] theorem exec_atomAnd (r : AtomArgs) (s : State) : exec (.atomAnd r) s = execAtomAnd r s := rfl
@[simp] theorem exec_atomOr (r : AtomArgs) (s : State) : exec (.atomOr r) s = execAtomOr r s := rfl
@[simp] theorem exec_atomXor (r : AtomArgs) (s : State) : exec (.atomXor r) s = execAtomXor r s := rfl
@[simp] theorem exec_atomSwap (r : AtomArgs) (s : State) : exec (.atomSwap r) s = execAtomSwap r s := rfl
@[simp] theorem exec_atomCas (r : AtomArgs) (s : State) : exec (.atomCas r) s = execAtomCas r s := rfl
@[simp] theorem exec_atomFadd (r : AtomArgs) (s : State) : exec (.atomFadd r) s = execAtomFadd r s := rfl
@[simp] theorem exec_atomLr (r : AtomArgs) (s : State) : exec (.atomLr r) s = execAtomLr r s := rfl
@[simp] theorem exec_atomSc (r : AtomArgs) (s : State) : exec (.atomSc r) s = execAtomSc r s := rfl
@[simp] theorem exec_atomLdaq (r : AtomArgs) (s : State) : exec (.atomLdaq r) s = execAtomLdaq r s := rfl
@[simp] theorem exec_atomStrl (r : AtomArgs) (s : State) : exec (.atomStrl r) s = execAtomStrl r s := rfl
@[simp] theorem exec_fence (scope : BitVec 6) (sem : BitVec 6) (s : State) :
    exec (.fence scope sem) s = execFence scope sem s := rfl
@[simp] theorem exec_bar (a : BitVec 3) (s : State) : exec (.bar a) s = execBar a s := rfl
@[simp] theorem exec_arrive (a : BitVec 3) (s : State) : exec (.arrive a) s = execArrive a s := rfl
@[simp] theorem exec_waitb (a : BitVec 3) (s : State) : exec (.waitb a) s = execWaitb a s := rfl
@[simp] theorem exec_win (d : BitVec 4) (a : BitVec 6) (k : BitVec 2) (s : State) : exec (.win d a k) s = execWin d a k s := rfl
@[simp] theorem exec_pref (r : PrefArgs) (s : State) : exec (.pref r) s = execPref r s := rfl
@[simp] theorem exec_prefCompletion (core : Nat) (id : Nat) (s : State) :
    exec (.prefCompletion core id) s = execPrefCompletion core id s := rfl
@[simp] theorem exec_copy (r : CopyArgs) (s : State) : exec (.copy r) s = execCopy r s := rfl
@[simp] theorem exec_copyLanding (core : Nat) (id : Nat) (s : State) :
    exec (.copyLanding core id) s = execCopyLanding core id s := rfl
@[simp] theorem exec_copyCompletion (core : Nat) (id : Nat) (s : State) :
    exec (.copyCompletion core id) s = execCopyCompletion core id s := rfl
@[simp] theorem exec_waitc (m : BitVec 8) (s : State) : exec (.waitc m) s = execWaitc m s := rfl
@[simp] theorem exec_mloop (r : MloopArgs) (s : State) : exec (.mloop r) s = execMloop r s := rfl
@[simp] theorem exec_commandStart (core : Nat) (slot : Nat) (id : Nat) (s : State) :
    exec (.commandStart core slot id) s = execCommandStart core slot id s := rfl
@[simp] theorem exec_tileStep (core : Nat) (slot : Nat) (id : Nat) (s : State) :
    exec (.tileStep core slot id) s = execTileStep core slot id s := rfl
@[simp] theorem exec_commandRetire (core : Nat) (slot : Nat) (id : Nat) (s : State) :
    exec (.commandRetire core slot id) s = execCommandRetire core slot id s := rfl
@[simp] theorem exec_mwait (r : SrcArgs) (s : State) : exec (.mwait r) s = execMwait r s := rfl
@[simp] theorem exec_aalloc (r : SArgs) (s : State) : exec (.aalloc r) s = execAalloc r s := rfl
@[simp] theorem exec_afree (r : SrcArgs) (s : State) : exec (.afree r) s = execAfree r s := rfl
@[simp] theorem exec_adrain (r : SArgs) (s : State) : exec (.adrain r) s = execAdrain r s := rfl
@[simp] theorem exec_azero (r : Src2Args) (s : State) : exec (.azero r) s = execAzero r s := rfl
@[simp] theorem exec_aquery (r : UArgs) (s : State) : exec (.aquery r) s = execAquery r s := rfl
@[simp] theorem exec_bkld (r : Src2Args) (s : State) : exec (.bkld r) s = execBkld r s := rfl
@[simp] theorem exec_bkrun (r : Src2Args) (s : State) : exec (.bkrun r) s = execBkrun r s := rfl
@[simp] theorem exec_bkwait (r : SArgs) (s : State) : exec (.bkwait r) s = execBkwait r s := rfl
@[simp] theorem exec_bkrd (r : SArgs) (s : State) : exec (.bkrd r) s = execBkrd r s := rfl
@[simp] theorem exec_bkst (r : Src2Args) (s : State) : exec (.bkst r) s = execBkst r s := rfl
@[simp] theorem exec_spawn (d : BitVec 6) (a : BitVec 6) (p : BitVec 3) (s : State) :
    exec (.spawn d a p) s = execSpawn d a p s := rfl
@[simp] theorem exec_postr (a : BitVec 6) (s : State) : exec (.postr a) s = execPostr a s := rfl
@[simp] theorem exec_posts (d : BitVec 6) (w : BitVec 4) (b : BitVec 6) (s : State) :
    exec (.posts d w b) s = execPosts d w b s := rfl
@[simp] theorem exec_disp (r : SysxArgs) (s : State) : exec (.disp r) s = execDisp r s := rfl
@[simp] theorem exec_dispReserve (r : SysxArgs) (s : State) : exec (.dispReserve r) s = execDispReserve r s := rfl
@[simp] theorem exec_dispRelease (r : SysxArgs) (s : State) : exec (.dispRelease r) s = execDispRelease r s := rfl
@[simp] theorem exec_startTeam (core : Nat) (slot : Nat) (s : State) :
    exec (.startTeam core slot) s = execStartTeam core slot s := rfl
@[simp] theorem exec_saveg (r : SysxArgs) (s : State) : exec (.saveg r) s = execSaveg r s := rfl
@[simp] theorem exec_restg (r : SysxArgs) (s : State) : exec (.restg r) s = execRestg r s := rfl
@[simp] theorem exec_tlbinv (r : SysxArgs) (s : State) : exec (.tlbinv r) s = execTlbinv r s := rfl
@[simp] theorem exec_shootdownAck (core : Nat) (f : Nat) (s : State) :
    exec (.shootdownAck core f) s = execShootdownAck core f s := rfl
@[simp] theorem exec_csrrd (d : BitVec 6) (a : BitVec 6) (s : State) : exec (.csrrd d a) s = execCsrrd d a s := rfl
@[simp] theorem exec_csrwr (a : BitVec 6) (b : BitVec 6) (s : State) : exec (.csrwr a b) s = execCsrwr a b s := rfl
@[simp] theorem exec_waitev (r : SysxArgs) (s : State) : exec (.waitev r) s = execWaitev r s := rfl
@[simp] theorem exec_hostirq (a : BitVec 6) (s : State) : exec (.hostirq a) s = execHostirq a s := rfl
@[simp] theorem exec_squash (r : SysxArgs) (s : State) : exec (.squash r) s = execSquash r s := rfl
@[simp] theorem exec_confirm (r : SysxArgs) (s : State) : exec (.confirm r) s = execConfirm r s := rfl
@[simp] theorem exec_resultWrite (ref : CtxRef) (seq : Nat) (s : State) :
    exec (.resultWrite ref seq) s = execResultWrite ref seq s := rfl
@[simp] theorem exec_teamEnd (core : Nat) (slot : Nat) (s : State) :
    exec (.teamEnd core slot) s = execTeamEnd core slot s := rfl
@[simp] theorem exec_tail (f : Nat) (q : Nat) (value : Word) (s : State) :
    exec (.tail f q value) s = execTail f q value s := rfl
@[simp] theorem exec_admission (core : Nat) (f : Nat) (q : Nat) (s : State) :
    exec (.admission core f q) s = execAdmission core f q s := rfl
@[simp] theorem exec_loadRecord (core : Nat) (f : Nat) (q : Nat) (s : State) :
    exec (.loadRecord core f q) s = execLoadRecord core f q s := rfl
@[simp] theorem exec_kick (f : Nat) (q : Nat) (s : State) : exec (.kick f q) s = execKick f q s := rfl
@[simp] theorem exec_claim (core : Nat) (f : Nat) (rec : Nat) (s : State) :
    exec (.claim core f rec) s = execClaim core f rec s := rfl
@[simp] theorem exec_retire (core : Nat) (slot : Nat) (s : State) : exec (.retire core slot) s = execRetire core slot s := rfl
@[simp] theorem exec_restart (core : Nat) (f : Nat) (ticket : Nat) (s : State) :
    exec (.restart core f ticket) s = execRestart core f ticket s := rfl
@[simp] theorem exec_ef0 (core : Nat) (s : State) : exec (.ef0 core) s = execEf0 core s := rfl
@[simp] theorem exec_settlement (core : Nat) (f : Nat) (rec : Nat) (s : State) :
    exec (.settlement core f rec) s = execSettlement core f rec s := rfl
@[simp] theorem exec_batchReady (core : Nat) (f : Nat) (node : Nat) (s : State) :
    exec (.batchReady core f node) s = execBatchReady core f node s := rfl
@[simp] theorem exec_basketOpened (core : Nat) (f : Nat) (node : Nat) (s : State) :
    exec (.basketOpened core f node) s = execBasketOpened core f node s := rfl
@[simp] theorem exec_lapse (core : Nat) (f : Nat) (node : Nat) (s : State) :
    exec (.lapse core f node) s = execLapse core f node s := rfl
@[simp] theorem exec_graphIdle (core : Nat) (f : Nat) (graph : Nat) (s : State) :
    exec (.graphIdle core f graph) s = execGraphIdle core f graph s := rfl
@[simp] theorem exec_saveNow (core : Nat) (f : Nat) (rec : Nat) (s : State) :
    exec (.saveNow core f rec) s = execSaveNow core f rec s := rfl
@[simp] theorem exec_worldSwitch (octet : Nat) (s : State) : exec (.worldSwitch octet) s = execWorldSwitch octet s := rfl
@[simp] theorem exec_switchAbandon (octet : Nat) (s : State) : exec (.switchAbandon octet) s = execSwitchAbandon octet s := rfl
@[simp] theorem exec_tinvctl (f : Nat) (value : Word) (s : State) : exec (.tinvctl f value) s = execTinvctl f value s := rfl
@[simp] theorem exec_watchhi (core : Nat) (value : Word) (s : State) :
    exec (.watchhi core value) s = execWatchhi core value s := rfl
@[simp] theorem exec_agentstop (core : Nat) (s : State) : exec (.agentstop core) s = execAgentstop core s := rfl
@[simp] theorem exec_dbgreqStop (s : State) : exec .dbgreqStop s = execDbgreqStop s := rfl
@[simp] theorem exec_dbgreqResume (s : State) : exec .dbgreqResume s = execDbgreqResume s := rfl
@[simp] theorem exec_dbgreqStep (s : State) : exec .dbgreqStep s = execDbgreqStep s := rfl
@[simp] theorem exec_dbgreqFail (s : State) : exec .dbgreqFail s = execDbgreqFail s := rfl
@[simp] theorem exec_dbgreqReadFrame (s : State) : exec .dbgreqReadFrame s = execDbgreqReadFrame s := rfl
@[simp] theorem exec_next (m : Micro) (s : State) : exec (.next m) s = execNext m s := rfl
@[simp] theorem exec_loop (m : Micro) (s : State) : exec (.loop m) s = execLoop m s := rfl
@[simp] theorem exec_close (m : Micro) (s : State) : exec (.close m) s = execClose m s := rfl
@[simp] theorem exec_halt (m : Micro) (s : State) : exec (.halt m) s = execHalt m s := rfl
@[simp] theorem exec_waitbc (m : Micro) (s : State) : exec (.waitbc m) s = execWaitbc m s := rfl
@[simp] theorem exec_flag (m : Micro) (s : State) : exec (.flag m) s = execFlag m s := rfl
@[simp] theorem exec_correction (unit : Nat) (s : State) : exec (.correction unit) s = execCorrection unit s := rfl
@[simp] theorem exec_contextSwitch (bank : Nat) (s : State) : exec (.contextSwitch bank) s = execContextSwitch bank s := rfl
@[simp] theorem exec_mapdataBind (s : State) : exec .mapdataBind s = execMapdataBind s := rfl
@[simp] theorem exec_mapdataScrub (s : State) : exec .mapdataScrub s = execMapdataScrub s := rfl
@[simp] theorem exec_migcmdCopy (s : State) : exec .migcmdCopy s = execMigcmdCopy s := rfl
@[simp] theorem exec_migcmdFinal (s : State) : exec .migcmdFinal s = execMigcmdFinal s := rfl
@[simp] theorem exec_migcmdRelease (s : State) : exec .migcmdRelease s = execMigcmdRelease s := rfl
@[simp] theorem exec_migcmdCommit (s : State) : exec .migcmdCommit s = execMigcmdCommit s := rfl
@[simp] theorem exec_amendPropose (s : State) : exec .amendPropose s = execAmendPropose s := rfl
@[simp] theorem exec_amendAccept (s : State) : exec .amendAccept s = execAmendAccept s := rfl
@[simp] theorem exec_amendReject (s : State) : exec .amendReject s = execAmendReject s := rfl
@[simp] theorem exec_amendAbort (s : State) : exec .amendAbort s = execAmendAbort s := rfl
@[simp] theorem exec_amendStatus (s : State) : exec .amendStatus s = execAmendStatus s := rfl
@[simp] theorem exec_lockInterface (s : State) : exec .lockInterface s = execLockInterface s := rfl
@[simp] theorem exec_startInterface (s : State) : exec .startInterface s = execStartInterface s := rfl
@[simp] theorem exec_stopInterface (s : State) : exec .stopInterface s = execStopInterface s := rfl
@[simp] theorem exec_getVersion (s : State) : exec .getVersion s = execGetVersion s := rfl
@[simp] theorem exec_getCapabilities (s : State) : exec .getCapabilities s = execGetCapabilities s := rfl
@[simp] theorem exec_negotiateAlgorithms (s : State) : exec .negotiateAlgorithms s = execNegotiateAlgorithms s := rfl
@[simp] theorem exec_getDigests (s : State) : exec .getDigests s = execGetDigests s := rfl
@[simp] theorem exec_getCertificate (s : State) : exec .getCertificate s = execGetCertificate s := rfl
@[simp] theorem exec_challenge (s : State) : exec .challenge s = execChallenge s := rfl
@[simp] theorem exec_getMeasurements (s : State) : exec .getMeasurements s = execGetMeasurements s := rfl
@[simp] theorem exec_keyExchange (s : State) : exec .keyExchange s = execKeyExchange s := rfl
@[simp] theorem exec_finish (s : State) : exec .finish s = execFinish s := rfl
@[simp] theorem exec_heartbeat (s : State) : exec .heartbeat s = execHeartbeat s := rfl
@[simp] theorem exec_keyUpdate (s : State) : exec .keyUpdate s = execKeyUpdate s := rfl
@[simp] theorem exec_endSession (s : State) : exec .endSession s = execEndSession s := rfl
@[simp] theorem exec_functionEnable (s : State) : exec .functionEnable s = execFunctionEnable s := rfl
@[simp] theorem exec_functionDisable (s : State) : exec .functionDisable s = execFunctionDisable s := rfl
@[simp] theorem exec_remoteAccess (req : RemoteReq) (s : State) : exec (.remoteAccess req) s = execRemoteAccess req s := rfl
@[simp] theorem exec_linkStart (domid : Nat) (s : State) : exec (.linkStart domid) s = execLinkStart domid s := rfl
@[simp] theorem exec_powerOn (selfTest : List Nat) (s : State) : exec (.powerOn selfTest) s = execPowerOn selfTest s := rfl
@[simp] theorem exec_throttle (domain : Nat) (level : Nat) (s : State) :
    exec (.throttle domain level) s = execThrottle domain level s := rfl
@[simp] theorem exec_thermalTrip (sensor : Nat) (s : State) : exec (.thermalTrip sensor) s = execThermalTrip sensor s := rfl
@[simp] theorem exec_csrWrite (bar : BarFunc) (n : Nat) (value : Word) (s : State) :
    exec (.csrWrite bar n value) s = execCsrWrite bar n value s := rfl
@[simp] theorem exec_hostWrite (f : Nat) (addr : Nat) (bytes : List Byte) (s : State) :
    exec (.hostWrite f addr bytes) s = execHostWrite f addr bytes s := rfl
@[simp] theorem exec_eviction (what : Evict) (s : State) : exec (.eviction what) s = execEviction what s := rfl
@[simp] theorem exec_softError (addr : Nat) (symbols : List (Nat × Nat)) (s : State) :
    exec (.softError addr symbols) s = execSoftError addr symbols s := rfl
@[simp] theorem exec_scrubComplete (f : Nat) (s : State) : exec (.scrubComplete f) s = execScrubComplete f s := rfl
@[simp] theorem exec_powerLoss (s : State) : exec .powerLoss s = execPowerLoss s := rfl
@[simp] theorem exec_linkDown (domid : Nat) (s : State) : exec (.linkDown domid) s = execLinkDown domid s := rfl
@[simp] theorem exec_remoteStoreAck (core : Nat) (ok : Bool) (s : State) :
    exec (.remoteStoreAck core ok) s = execRemoteStoreAck core ok s := rfl
@[simp] theorem exec_ideIntegrityFailure (s : State) : exec .ideIntegrityFailure s = execIdeIntegrityFailure s := rfl
@[simp] theorem exec_parityError (s : State) : exec .parityError s = execParityError s := rfl
@[simp] theorem exec_tdispProtocolViolation (s : State) : exec .tdispProtocolViolation s = execTdispProtocolViolation s := rfl
@[simp] theorem exec_larderError (s : State) : exec .larderError s = execLarderError s := rfl
@[simp] theorem exec_unassignedEncoding (w : Word) (s : State) :
    exec (.unassignedEncoding w) s = execUnassignedEncoding w s := rfl
@[simp] theorem exec_tgt (w : Word) (s : State) : exec (.tgt w) s = execTgt w s := rfl

end Sys2Proof.Machine
end

