-- ==== Sys2Proof/Laws/State.lean ====
section
/-! SUPPORT. Laws/State.lean: what each named update of the state leaves in every other field, one lemma a field, true by
definition; and what reading a part answers after an update of it. -/

namespace Sys2Proof.Machine

/-! ## Sparse tables -/

theorem tget_tput_self {α : Type} (t : Tbl α) (d v : α) (k : Nat) : tget (tput t k v) d k = v := by
  induction t with
  | nil => simp [tput, tget]
  | cons e r ih =>
    obtain ⟨i, x⟩ := e
    simp only [tput]
    split
    · simp [tget]
    · split
      · simp [tget]
      · simp [tget, ih]; omega

theorem tget_tput_ne {α : Type} (t : Tbl α) (d v : α) (k j : Nat) (h : j ≠ k) : tget (tput t k v) d j = tget t d j := by
  induction t with
  | nil => simp [tput, tget]; omega
  | cons e r ih =>
    obtain ⟨i, x⟩ := e
    simp only [tput]
    split
    · rename_i hk
      simp only [tget]
      rw [if_neg (by omega)]
    · split
      · simp only [tget]
        rw [if_neg (by omega), if_neg (by omega)]
      · simp only [tget, ih]

theorem tget_tput {α : Type} (t : Tbl α) (d v : α) (k j : Nat) :
    tget (tput t k v) d j = if j = k then v else tget t d j := by
  by_cases h : j = k
  · subst h; simp [tget_tput_self]
  · simp [h, tget_tput_ne]

/-! ## Fields after an update -/

@[simp] theorem State.setCore_who (s : State) (c : Nat) (x : Core) : (s.setCore c x).who = s.who := rfl
@[simp] theorem State.setCore_agenda (s : State) (c : Nat) (x : Core) : (s.setCore c x).agenda = s.agenda := rfl
@[simp] theorem State.setCore_request (s : State) (c : Nat) (x : Core) : (s.setCore c x).request = s.request := rfl
@[simp] theorem State.setCore_turn (s : State) (c : Nat) (x : Core) : (s.setCore c x).turn = s.turn := rfl
@[simp] theorem State.setCore_waited (s : State) (c : Nat) (x : Core) : (s.setCore c x).waited = s.waited := rfl
@[simp] theorem State.setCore_time (s : State) (c : Nat) (x : Core) : (s.setCore c x).time = s.time := rfl
@[simp] theorem State.setCore_free (s : State) (c : Nat) (x : Core) : (s.setCore c x).free = s.free := rfl
@[simp] theorem State.setCore_seq (s : State) (c : Nat) (x : Core) : (s.setCore c x).seq = s.seq := rfl
@[simp] theorem State.setCore_teams (s : State) (c : Nat) (x : Core) : (s.setCore c x).teams = s.teams := rfl
@[simp] theorem State.setCore_groups (s : State) (c : Nat) (x : Core) : (s.setCore c x).groups = s.groups := rfl
@[simp] theorem State.setCore_funcs (s : State) (c : Nat) (x : Core) : (s.setCore c x).funcs = s.funcs := rfl
@[simp] theorem State.setCore_units (s : State) (c : Nat) (x : Core) : (s.setCore c x).units = s.units := rfl
@[simp] theorem State.setCore_banks (s : State) (c : Nat) (x : Core) : (s.setCore c x).banks = s.banks := rfl
@[simp] theorem State.setCore_mem (s : State) (c : Nat) (x : Core) : (s.setCore c x).mem = s.mem := rfl
@[simp] theorem State.setCore_rowBlocks (s : State) (c : Nat) (x : Core) : (s.setCore c x).rowBlocks = s.rowBlocks := rfl
@[simp] theorem State.setCore_poison (s : State) (c : Nat) (x : Core) : (s.setCore c x).poison = s.poison := rfl
@[simp] theorem State.setCore_bad (s : State) (c : Nat) (x : Core) : (s.setCore c x).bad = s.bad := rfl
@[simp] theorem State.setCore_keySlots (s : State) (c : Nat) (x : Core) : (s.setCore c x).keySlots = s.keySlots := rfl
@[simp] theorem State.setCore_watch (s : State) (c : Nat) (x : Core) : (s.setCore c x).watch = s.watch := rfl
@[simp] theorem State.setCore_releasers (s : State) (c : Nat) (x : Core) : (s.setCore c x).releasers = s.releasers := rfl
@[simp] theorem State.setCore_resident (s : State) (c : Nat) (x : Core) : (s.setCore c x).resident = s.resident := rfl
@[simp] theorem State.setCore_l2tlb (s : State) (c : Nat) (x : Core) : (s.setCore c x).l2tlb = s.l2tlb := rfl
@[simp] theorem State.setCore_outStores (s : State) (c : Nat) (x : Core) : (s.setCore c x).outStores = s.outStores := rfl
@[simp] theorem State.setCore_remoteRes (s : State) (c : Nat) (x : Core) : (s.setCore c x).remoteRes = s.remoteRes := rfl
@[simp] theorem State.setCore_shoots (s : State) (c : Nat) (x : Core) : (s.setCore c x).shoots = s.shoots := rfl
@[simp] theorem State.setCore_csr (s : State) (c : Nat) (x : Core) : (s.setCore c x).csr = s.csr := rfl
@[simp] theorem State.setCore_power (s : State) (c : Nat) (x : Core) : (s.setCore c x).power = s.power := rfl
@[simp] theorem State.setCore_domains (s : State) (c : Nat) (x : Core) : (s.setCore c x).domains = s.domains := rfl
@[simp] theorem State.setCore_linkUp (s : State) (c : Nat) (x : Core) : (s.setCore c x).linkUp = s.linkUp := rfl
@[simp] theorem State.setCore_irqs (s : State) (c : Nat) (x : Core) : (s.setCore c x).irqs = s.irqs := rfl
@[simp] theorem State.setCore_replies (s : State) (c : Nat) (x : Core) : (s.setCore c x).replies = s.replies := rfl

@[simp] theorem State.setTeam_who (s : State) (c sl : Nat) (x : Team) : (s.setTeam c sl x).who = s.who := rfl
@[simp] theorem State.setTeam_agenda (s : State) (c sl : Nat) (x : Team) : (s.setTeam c sl x).agenda = s.agenda := rfl
@[simp] theorem State.setTeam_request (s : State) (c sl : Nat) (x : Team) : (s.setTeam c sl x).request = s.request := rfl
@[simp] theorem State.setTeam_turn (s : State) (c sl : Nat) (x : Team) : (s.setTeam c sl x).turn = s.turn := rfl
@[simp] theorem State.setTeam_waited (s : State) (c sl : Nat) (x : Team) : (s.setTeam c sl x).waited = s.waited := rfl
@[simp] theorem State.setTeam_time (s : State) (c sl : Nat) (x : Team) : (s.setTeam c sl x).time = s.time := rfl
@[simp] theorem State.setTeam_free (s : State) (c sl : Nat) (x : Team) : (s.setTeam c sl x).free = s.free := rfl
@[simp] theorem State.setTeam_seq (s : State) (c sl : Nat) (x : Team) : (s.setTeam c sl x).seq = s.seq := rfl
@[simp] theorem State.setTeam_cores (s : State) (c sl : Nat) (x : Team) : (s.setTeam c sl x).cores = s.cores := rfl
@[simp] theorem State.setTeam_groups (s : State) (c sl : Nat) (x : Team) : (s.setTeam c sl x).groups = s.groups := rfl
@[simp] theorem State.setTeam_funcs (s : State) (c sl : Nat) (x : Team) : (s.setTeam c sl x).funcs = s.funcs := rfl
@[simp] theorem State.setTeam_units (s : State) (c sl : Nat) (x : Team) : (s.setTeam c sl x).units = s.units := rfl
@[simp] theorem State.setTeam_banks (s : State) (c sl : Nat) (x : Team) : (s.setTeam c sl x).banks = s.banks := rfl
@[simp] theorem State.setTeam_mem (s : State) (c sl : Nat) (x : Team) : (s.setTeam c sl x).mem = s.mem := rfl
@[simp] theorem State.setTeam_rowBlocks (s : State) (c sl : Nat) (x : Team) : (s.setTeam c sl x).rowBlocks = s.rowBlocks := rfl
@[simp] theorem State.setTeam_poison (s : State) (c sl : Nat) (x : Team) : (s.setTeam c sl x).poison = s.poison := rfl
@[simp] theorem State.setTeam_bad (s : State) (c sl : Nat) (x : Team) : (s.setTeam c sl x).bad = s.bad := rfl
@[simp] theorem State.setTeam_keySlots (s : State) (c sl : Nat) (x : Team) : (s.setTeam c sl x).keySlots = s.keySlots := rfl
@[simp] theorem State.setTeam_watch (s : State) (c sl : Nat) (x : Team) : (s.setTeam c sl x).watch = s.watch := rfl
@[simp] theorem State.setTeam_releasers (s : State) (c sl : Nat) (x : Team) : (s.setTeam c sl x).releasers = s.releasers := rfl
@[simp] theorem State.setTeam_resident (s : State) (c sl : Nat) (x : Team) : (s.setTeam c sl x).resident = s.resident := rfl
@[simp] theorem State.setTeam_l2tlb (s : State) (c sl : Nat) (x : Team) : (s.setTeam c sl x).l2tlb = s.l2tlb := rfl
@[simp] theorem State.setTeam_outStores (s : State) (c sl : Nat) (x : Team) : (s.setTeam c sl x).outStores = s.outStores := rfl
@[simp] theorem State.setTeam_remoteRes (s : State) (c sl : Nat) (x : Team) : (s.setTeam c sl x).remoteRes = s.remoteRes := rfl
@[simp] theorem State.setTeam_shoots (s : State) (c sl : Nat) (x : Team) : (s.setTeam c sl x).shoots = s.shoots := rfl
@[simp] theorem State.setTeam_csr (s : State) (c sl : Nat) (x : Team) : (s.setTeam c sl x).csr = s.csr := rfl
@[simp] theorem State.setTeam_power (s : State) (c sl : Nat) (x : Team) : (s.setTeam c sl x).power = s.power := rfl
@[simp] theorem State.setTeam_domains (s : State) (c sl : Nat) (x : Team) : (s.setTeam c sl x).domains = s.domains := rfl
@[simp] theorem State.setTeam_linkUp (s : State) (c sl : Nat) (x : Team) : (s.setTeam c sl x).linkUp = s.linkUp := rfl
@[simp] theorem State.setTeam_irqs (s : State) (c sl : Nat) (x : Team) : (s.setTeam c sl x).irqs = s.irqs := rfl
@[simp] theorem State.setTeam_replies (s : State) (c sl : Nat) (x : Team) : (s.setTeam c sl x).replies = s.replies := rfl

@[simp] theorem State.setGroup_who (s : State) (c sl g : Nat) (x : Group) : (s.setGroup c sl g x).who = s.who := rfl
@[simp] theorem State.setGroup_agenda (s : State) (c sl g : Nat) (x : Group) : (s.setGroup c sl g x).agenda = s.agenda := rfl
@[simp] theorem State.setGroup_request (s : State) (c sl g : Nat) (x : Group) : (s.setGroup c sl g x).request = s.request := rfl
@[simp] theorem State.setGroup_turn (s : State) (c sl g : Nat) (x : Group) : (s.setGroup c sl g x).turn = s.turn := rfl
@[simp] theorem State.setGroup_waited (s : State) (c sl g : Nat) (x : Group) : (s.setGroup c sl g x).waited = s.waited := rfl
@[simp] theorem State.setGroup_time (s : State) (c sl g : Nat) (x : Group) : (s.setGroup c sl g x).time = s.time := rfl
@[simp] theorem State.setGroup_free (s : State) (c sl g : Nat) (x : Group) : (s.setGroup c sl g x).free = s.free := rfl
@[simp] theorem State.setGroup_seq (s : State) (c sl g : Nat) (x : Group) : (s.setGroup c sl g x).seq = s.seq := rfl
@[simp] theorem State.setGroup_cores (s : State) (c sl g : Nat) (x : Group) : (s.setGroup c sl g x).cores = s.cores := rfl
@[simp] theorem State.setGroup_teams (s : State) (c sl g : Nat) (x : Group) : (s.setGroup c sl g x).teams = s.teams := rfl
@[simp] theorem State.setGroup_funcs (s : State) (c sl g : Nat) (x : Group) : (s.setGroup c sl g x).funcs = s.funcs := rfl
@[simp] theorem State.setGroup_units (s : State) (c sl g : Nat) (x : Group) : (s.setGroup c sl g x).units = s.units := rfl
@[simp] theorem State.setGroup_banks (s : State) (c sl g : Nat) (x : Group) : (s.setGroup c sl g x).banks = s.banks := rfl
@[simp] theorem State.setGroup_mem (s : State) (c sl g : Nat) (x : Group) : (s.setGroup c sl g x).mem = s.mem := rfl
@[simp] theorem State.setGroup_rowBlocks (s : State) (c sl g : Nat) (x : Group) : (s.setGroup c sl g x).rowBlocks = s.rowBlocks := rfl
@[simp] theorem State.setGroup_poison (s : State) (c sl g : Nat) (x : Group) : (s.setGroup c sl g x).poison = s.poison := rfl
@[simp] theorem State.setGroup_bad (s : State) (c sl g : Nat) (x : Group) : (s.setGroup c sl g x).bad = s.bad := rfl
@[simp] theorem State.setGroup_keySlots (s : State) (c sl g : Nat) (x : Group) : (s.setGroup c sl g x).keySlots = s.keySlots := rfl
@[simp] theorem State.setGroup_watch (s : State) (c sl g : Nat) (x : Group) : (s.setGroup c sl g x).watch = s.watch := rfl
@[simp] theorem State.setGroup_releasers (s : State) (c sl g : Nat) (x : Group) : (s.setGroup c sl g x).releasers = s.releasers := rfl
@[simp] theorem State.setGroup_resident (s : State) (c sl g : Nat) (x : Group) : (s.setGroup c sl g x).resident = s.resident := rfl
@[simp] theorem State.setGroup_l2tlb (s : State) (c sl g : Nat) (x : Group) : (s.setGroup c sl g x).l2tlb = s.l2tlb := rfl
@[simp] theorem State.setGroup_outStores (s : State) (c sl g : Nat) (x : Group) : (s.setGroup c sl g x).outStores = s.outStores := rfl
@[simp] theorem State.setGroup_remoteRes (s : State) (c sl g : Nat) (x : Group) : (s.setGroup c sl g x).remoteRes = s.remoteRes := rfl
@[simp] theorem State.setGroup_shoots (s : State) (c sl g : Nat) (x : Group) : (s.setGroup c sl g x).shoots = s.shoots := rfl
@[simp] theorem State.setGroup_csr (s : State) (c sl g : Nat) (x : Group) : (s.setGroup c sl g x).csr = s.csr := rfl
@[simp] theorem State.setGroup_power (s : State) (c sl g : Nat) (x : Group) : (s.setGroup c sl g x).power = s.power := rfl
@[simp] theorem State.setGroup_domains (s : State) (c sl g : Nat) (x : Group) : (s.setGroup c sl g x).domains = s.domains := rfl
@[simp] theorem State.setGroup_linkUp (s : State) (c sl g : Nat) (x : Group) : (s.setGroup c sl g x).linkUp = s.linkUp := rfl
@[simp] theorem State.setGroup_irqs (s : State) (c sl g : Nat) (x : Group) : (s.setGroup c sl g x).irqs = s.irqs := rfl
@[simp] theorem State.setGroup_replies (s : State) (c sl g : Nat) (x : Group) : (s.setGroup c sl g x).replies = s.replies := rfl

@[simp] theorem State.setFunc_who (s : State) (f : Nat) (x : Func) : (s.setFunc f x).who = s.who := rfl
@[simp] theorem State.setFunc_agenda (s : State) (f : Nat) (x : Func) : (s.setFunc f x).agenda = s.agenda := rfl
@[simp] theorem State.setFunc_request (s : State) (f : Nat) (x : Func) : (s.setFunc f x).request = s.request := rfl
@[simp] theorem State.setFunc_turn (s : State) (f : Nat) (x : Func) : (s.setFunc f x).turn = s.turn := rfl
@[simp] theorem State.setFunc_waited (s : State) (f : Nat) (x : Func) : (s.setFunc f x).waited = s.waited := rfl
@[simp] theorem State.setFunc_time (s : State) (f : Nat) (x : Func) : (s.setFunc f x).time = s.time := rfl
@[simp] theorem State.setFunc_free (s : State) (f : Nat) (x : Func) : (s.setFunc f x).free = s.free := rfl
@[simp] theorem State.setFunc_seq (s : State) (f : Nat) (x : Func) : (s.setFunc f x).seq = s.seq := rfl
@[simp] theorem State.setFunc_cores (s : State) (f : Nat) (x : Func) : (s.setFunc f x).cores = s.cores := rfl
@[simp] theorem State.setFunc_teams (s : State) (f : Nat) (x : Func) : (s.setFunc f x).teams = s.teams := rfl
@[simp] theorem State.setFunc_groups (s : State) (f : Nat) (x : Func) : (s.setFunc f x).groups = s.groups := rfl
@[simp] theorem State.setFunc_units (s : State) (f : Nat) (x : Func) : (s.setFunc f x).units = s.units := rfl
@[simp] theorem State.setFunc_banks (s : State) (f : Nat) (x : Func) : (s.setFunc f x).banks = s.banks := rfl
@[simp] theorem State.setFunc_mem (s : State) (f : Nat) (x : Func) : (s.setFunc f x).mem = s.mem := rfl
@[simp] theorem State.setFunc_rowBlocks (s : State) (f : Nat) (x : Func) : (s.setFunc f x).rowBlocks = s.rowBlocks := rfl
@[simp] theorem State.setFunc_poison (s : State) (f : Nat) (x : Func) : (s.setFunc f x).poison = s.poison := rfl
@[simp] theorem State.setFunc_bad (s : State) (f : Nat) (x : Func) : (s.setFunc f x).bad = s.bad := rfl
@[simp] theorem State.setFunc_keySlots (s : State) (f : Nat) (x : Func) : (s.setFunc f x).keySlots = s.keySlots := rfl
@[simp] theorem State.setFunc_watch (s : State) (f : Nat) (x : Func) : (s.setFunc f x).watch = s.watch := rfl
@[simp] theorem State.setFunc_releasers (s : State) (f : Nat) (x : Func) : (s.setFunc f x).releasers = s.releasers := rfl
@[simp] theorem State.setFunc_resident (s : State) (f : Nat) (x : Func) : (s.setFunc f x).resident = s.resident := rfl
@[simp] theorem State.setFunc_l2tlb (s : State) (f : Nat) (x : Func) : (s.setFunc f x).l2tlb = s.l2tlb := rfl
@[simp] theorem State.setFunc_outStores (s : State) (f : Nat) (x : Func) : (s.setFunc f x).outStores = s.outStores := rfl
@[simp] theorem State.setFunc_remoteRes (s : State) (f : Nat) (x : Func) : (s.setFunc f x).remoteRes = s.remoteRes := rfl
@[simp] theorem State.setFunc_shoots (s : State) (f : Nat) (x : Func) : (s.setFunc f x).shoots = s.shoots := rfl
@[simp] theorem State.setFunc_csr (s : State) (f : Nat) (x : Func) : (s.setFunc f x).csr = s.csr := rfl
@[simp] theorem State.setFunc_power (s : State) (f : Nat) (x : Func) : (s.setFunc f x).power = s.power := rfl
@[simp] theorem State.setFunc_domains (s : State) (f : Nat) (x : Func) : (s.setFunc f x).domains = s.domains := rfl
@[simp] theorem State.setFunc_linkUp (s : State) (f : Nat) (x : Func) : (s.setFunc f x).linkUp = s.linkUp := rfl
@[simp] theorem State.setFunc_irqs (s : State) (f : Nat) (x : Func) : (s.setFunc f x).irqs = s.irqs := rfl
@[simp] theorem State.setFunc_replies (s : State) (f : Nat) (x : Func) : (s.setFunc f x).replies = s.replies := rfl

@[simp] theorem State.setUnit_who (s : State) (k : Nat) (x : Unit) : (s.setUnit k x).who = s.who := rfl
@[simp] theorem State.setUnit_agenda (s : State) (k : Nat) (x : Unit) : (s.setUnit k x).agenda = s.agenda := rfl
@[simp] theorem State.setUnit_request (s : State) (k : Nat) (x : Unit) : (s.setUnit k x).request = s.request := rfl
@[simp] theorem State.setUnit_turn (s : State) (k : Nat) (x : Unit) : (s.setUnit k x).turn = s.turn := rfl
@[simp] theorem State.setUnit_waited (s : State) (k : Nat) (x : Unit) : (s.setUnit k x).waited = s.waited := rfl
@[simp] theorem State.setUnit_time (s : State) (k : Nat) (x : Unit) : (s.setUnit k x).time = s.time := rfl
@[simp] theorem State.setUnit_free (s : State) (k : Nat) (x : Unit) : (s.setUnit k x).free = s.free := rfl
@[simp] theorem State.setUnit_seq (s : State) (k : Nat) (x : Unit) : (s.setUnit k x).seq = s.seq := rfl
@[simp] theorem State.setUnit_cores (s : State) (k : Nat) (x : Unit) : (s.setUnit k x).cores = s.cores := rfl
@[simp] theorem State.setUnit_teams (s : State) (k : Nat) (x : Unit) : (s.setUnit k x).teams = s.teams := rfl
@[simp] theorem State.setUnit_groups (s : State) (k : Nat) (x : Unit) : (s.setUnit k x).groups = s.groups := rfl
@[simp] theorem State.setUnit_funcs (s : State) (k : Nat) (x : Unit) : (s.setUnit k x).funcs = s.funcs := rfl
@[simp] theorem State.setUnit_banks (s : State) (k : Nat) (x : Unit) : (s.setUnit k x).banks = s.banks := rfl
@[simp] theorem State.setUnit_mem (s : State) (k : Nat) (x : Unit) : (s.setUnit k x).mem = s.mem := rfl
@[simp] theorem State.setUnit_rowBlocks (s : State) (k : Nat) (x : Unit) : (s.setUnit k x).rowBlocks = s.rowBlocks := rfl
@[simp] theorem State.setUnit_poison (s : State) (k : Nat) (x : Unit) : (s.setUnit k x).poison = s.poison := rfl
@[simp] theorem State.setUnit_bad (s : State) (k : Nat) (x : Unit) : (s.setUnit k x).bad = s.bad := rfl
@[simp] theorem State.setUnit_keySlots (s : State) (k : Nat) (x : Unit) : (s.setUnit k x).keySlots = s.keySlots := rfl
@[simp] theorem State.setUnit_watch (s : State) (k : Nat) (x : Unit) : (s.setUnit k x).watch = s.watch := rfl
@[simp] theorem State.setUnit_releasers (s : State) (k : Nat) (x : Unit) : (s.setUnit k x).releasers = s.releasers := rfl
@[simp] theorem State.setUnit_resident (s : State) (k : Nat) (x : Unit) : (s.setUnit k x).resident = s.resident := rfl
@[simp] theorem State.setUnit_l2tlb (s : State) (k : Nat) (x : Unit) : (s.setUnit k x).l2tlb = s.l2tlb := rfl
@[simp] theorem State.setUnit_outStores (s : State) (k : Nat) (x : Unit) : (s.setUnit k x).outStores = s.outStores := rfl
@[simp] theorem State.setUnit_remoteRes (s : State) (k : Nat) (x : Unit) : (s.setUnit k x).remoteRes = s.remoteRes := rfl
@[simp] theorem State.setUnit_shoots (s : State) (k : Nat) (x : Unit) : (s.setUnit k x).shoots = s.shoots := rfl
@[simp] theorem State.setUnit_csr (s : State) (k : Nat) (x : Unit) : (s.setUnit k x).csr = s.csr := rfl
@[simp] theorem State.setUnit_power (s : State) (k : Nat) (x : Unit) : (s.setUnit k x).power = s.power := rfl
@[simp] theorem State.setUnit_domains (s : State) (k : Nat) (x : Unit) : (s.setUnit k x).domains = s.domains := rfl
@[simp] theorem State.setUnit_linkUp (s : State) (k : Nat) (x : Unit) : (s.setUnit k x).linkUp = s.linkUp := rfl
@[simp] theorem State.setUnit_irqs (s : State) (k : Nat) (x : Unit) : (s.setUnit k x).irqs = s.irqs := rfl
@[simp] theorem State.setUnit_replies (s : State) (k : Nat) (x : Unit) : (s.setUnit k x).replies = s.replies := rfl

@[simp] theorem State.due_who (s : State) (ds : List Due) : (s.due ds).who = s.who := rfl
@[simp] theorem State.due_request (s : State) (ds : List Due) : (s.due ds).request = s.request := rfl
@[simp] theorem State.due_turn (s : State) (ds : List Due) : (s.due ds).turn = s.turn := rfl
@[simp] theorem State.due_waited (s : State) (ds : List Due) : (s.due ds).waited = s.waited := rfl
@[simp] theorem State.due_time (s : State) (ds : List Due) : (s.due ds).time = s.time := rfl
@[simp] theorem State.due_free (s : State) (ds : List Due) : (s.due ds).free = s.free := rfl
@[simp] theorem State.due_seq (s : State) (ds : List Due) : (s.due ds).seq = s.seq := rfl
@[simp] theorem State.due_cores (s : State) (ds : List Due) : (s.due ds).cores = s.cores := rfl
@[simp] theorem State.due_teams (s : State) (ds : List Due) : (s.due ds).teams = s.teams := rfl
@[simp] theorem State.due_groups (s : State) (ds : List Due) : (s.due ds).groups = s.groups := rfl
@[simp] theorem State.due_funcs (s : State) (ds : List Due) : (s.due ds).funcs = s.funcs := rfl
@[simp] theorem State.due_units (s : State) (ds : List Due) : (s.due ds).units = s.units := rfl
@[simp] theorem State.due_banks (s : State) (ds : List Due) : (s.due ds).banks = s.banks := rfl
@[simp] theorem State.due_mem (s : State) (ds : List Due) : (s.due ds).mem = s.mem := rfl
@[simp] theorem State.due_rowBlocks (s : State) (ds : List Due) : (s.due ds).rowBlocks = s.rowBlocks := rfl
@[simp] theorem State.due_poison (s : State) (ds : List Due) : (s.due ds).poison = s.poison := rfl
@[simp] theorem State.due_bad (s : State) (ds : List Due) : (s.due ds).bad = s.bad := rfl
@[simp] theorem State.due_keySlots (s : State) (ds : List Due) : (s.due ds).keySlots = s.keySlots := rfl
@[simp] theorem State.due_watch (s : State) (ds : List Due) : (s.due ds).watch = s.watch := rfl
@[simp] theorem State.due_releasers (s : State) (ds : List Due) : (s.due ds).releasers = s.releasers := rfl
@[simp] theorem State.due_resident (s : State) (ds : List Due) : (s.due ds).resident = s.resident := rfl
@[simp] theorem State.due_l2tlb (s : State) (ds : List Due) : (s.due ds).l2tlb = s.l2tlb := rfl
@[simp] theorem State.due_outStores (s : State) (ds : List Due) : (s.due ds).outStores = s.outStores := rfl
@[simp] theorem State.due_remoteRes (s : State) (ds : List Due) : (s.due ds).remoteRes = s.remoteRes := rfl
@[simp] theorem State.due_shoots (s : State) (ds : List Due) : (s.due ds).shoots = s.shoots := rfl
@[simp] theorem State.due_csr (s : State) (ds : List Due) : (s.due ds).csr = s.csr := rfl
@[simp] theorem State.due_power (s : State) (ds : List Due) : (s.due ds).power = s.power := rfl
@[simp] theorem State.due_domains (s : State) (ds : List Due) : (s.due ds).domains = s.domains := rfl
@[simp] theorem State.due_linkUp (s : State) (ds : List Due) : (s.due ds).linkUp = s.linkUp := rfl
@[simp] theorem State.due_irqs (s : State) (ds : List Due) : (s.due ds).irqs = s.irqs := rfl
@[simp] theorem State.due_replies (s : State) (ds : List Due) : (s.due ds).replies = s.replies := rfl

/-! ## Parts after an update -/

@[simp] theorem State.setCore_team (s : State) (c : Nat) (x : Core) (d e : Nat) : (s.setCore c x).team d e = s.team d e := rfl
@[simp] theorem State.setCore_group (s : State) (c : Nat) (x : Core) (d e h : Nat) : (s.setCore c x).group d e h = s.group d e h := rfl
@[simp] theorem State.setCore_func (s : State) (c : Nat) (x : Core) (d : Nat) : (s.setCore c x).func d = s.func d := rfl
@[simp] theorem State.setCore_unit (s : State) (c : Nat) (x : Core) (d : Nat) : (s.setCore c x).unit d = s.unit d := rfl
@[simp] theorem State.setCore_fcsr (s : State) (c : Nat) (x : Core) (f' n : Nat) : (s.setCore c x).fcsr f' n = s.fcsr f' n := rfl

@[simp] theorem State.setTeam_core (s : State) (c sl : Nat) (x : Team) (d : Nat) : (s.setTeam c sl x).core d = s.core d := rfl
@[simp] theorem State.setTeam_group (s : State) (c sl : Nat) (x : Team) (d e h : Nat) : (s.setTeam c sl x).group d e h = s.group d e h := rfl
@[simp] theorem State.setTeam_func (s : State) (c sl : Nat) (x : Team) (d : Nat) : (s.setTeam c sl x).func d = s.func d := rfl
@[simp] theorem State.setTeam_unit (s : State) (c sl : Nat) (x : Team) (d : Nat) : (s.setTeam c sl x).unit d = s.unit d := rfl
@[simp] theorem State.setTeam_fcsr (s : State) (c sl : Nat) (x : Team) (f' n : Nat) : (s.setTeam c sl x).fcsr f' n = s.fcsr f' n := rfl

@[simp] theorem State.setGroup_core (s : State) (c sl g : Nat) (x : Group) (d : Nat) : (s.setGroup c sl g x).core d = s.core d := rfl
@[simp] theorem State.setGroup_team (s : State) (c sl g : Nat) (x : Group) (d e : Nat) : (s.setGroup c sl g x).team d e = s.team d e := rfl
@[simp] theorem State.setGroup_func (s : State) (c sl g : Nat) (x : Group) (d : Nat) : (s.setGroup c sl g x).func d = s.func d := rfl
@[simp] theorem State.setGroup_unit (s : State) (c sl g : Nat) (x : Group) (d : Nat) : (s.setGroup c sl g x).unit d = s.unit d := rfl
@[simp] theorem State.setGroup_fcsr (s : State) (c sl g : Nat) (x : Group) (f' n : Nat) : (s.setGroup c sl g x).fcsr f' n = s.fcsr f' n := rfl

@[simp] theorem State.setFunc_core (s : State) (f : Nat) (x : Func) (d : Nat) : (s.setFunc f x).core d = s.core d := rfl
@[simp] theorem State.setFunc_team (s : State) (f : Nat) (x : Func) (d e : Nat) : (s.setFunc f x).team d e = s.team d e := rfl
@[simp] theorem State.setFunc_group (s : State) (f : Nat) (x : Func) (d e h : Nat) : (s.setFunc f x).group d e h = s.group d e h := rfl
@[simp] theorem State.setFunc_unit (s : State) (f : Nat) (x : Func) (d : Nat) : (s.setFunc f x).unit d = s.unit d := rfl

@[simp] theorem State.setUnit_core (s : State) (k : Nat) (x : Unit) (d : Nat) : (s.setUnit k x).core d = s.core d := rfl
@[simp] theorem State.setUnit_team (s : State) (k : Nat) (x : Unit) (d e : Nat) : (s.setUnit k x).team d e = s.team d e := rfl
@[simp] theorem State.setUnit_group (s : State) (k : Nat) (x : Unit) (d e h : Nat) : (s.setUnit k x).group d e h = s.group d e h := rfl
@[simp] theorem State.setUnit_func (s : State) (k : Nat) (x : Unit) (d : Nat) : (s.setUnit k x).func d = s.func d := rfl
@[simp] theorem State.setUnit_fcsr (s : State) (k : Nat) (x : Unit) (f' n : Nat) : (s.setUnit k x).fcsr f' n = s.fcsr f' n := rfl

@[simp] theorem State.due_core (s : State) (ds : List Due) (d : Nat) : (s.due ds).core d = s.core d := rfl
@[simp] theorem State.due_team (s : State) (ds : List Due) (d e : Nat) : (s.due ds).team d e = s.team d e := rfl
@[simp] theorem State.due_group (s : State) (ds : List Due) (d e h : Nat) : (s.due ds).group d e h = s.group d e h := rfl
@[simp] theorem State.due_func (s : State) (ds : List Due) (d : Nat) : (s.due ds).func d = s.func d := rfl
@[simp] theorem State.due_unit (s : State) (ds : List Due) (d : Nat) : (s.due ds).unit d = s.unit d := rfl
@[simp] theorem State.due_fcsr (s : State) (ds : List Due) (f' n : Nat) : (s.due ds).fcsr f' n = s.fcsr f' n := rfl

theorem State.setCore_core (s : State) (c : Nat) (x : Core) (d : Nat) :
    (s.setCore c x).core d = if d = c then x else s.core d := tget_tput _ _ _ _ _

theorem State.setFunc_func (s : State) (f : Nat) (x : Func) (d : Nat) :
    (s.setFunc f x).func d = if d = f then x else s.func d := tget_tput _ _ _ _ _

theorem State.setUnit_unit (s : State) (k : Nat) (x : Unit) (d : Nat) :
    (s.setUnit k x).unit d = if d = k then x else s.unit d := tget_tput _ _ _ _ _

theorem State.setTeam_team (s : State) (c sl : Nat) (x : Team) (d e : Nat) :
    (s.setTeam c sl x).team d e = if teamKey d e = teamKey c sl then x else s.team d e := tget_tput _ _ _ _ _

theorem State.setGroup_group (s : State) (c sl g : Nat) (x : Group) (d e h : Nat) :
    (s.setGroup c sl g x).group d e h = if groupKey d e h = groupKey c sl g then x else s.group d e h :=
  tget_tput _ _ _ _ _

@[simp] theorem State.setCore_core_self (s : State) (c : Nat) (x : Core) : (s.setCore c x).core c = x := by
  simp [State.setCore_core]

@[simp] theorem State.setTeam_team_self (s : State) (c sl : Nat) (x : Team) : (s.setTeam c sl x).team c sl = x := by
  simp [State.setTeam_team]

@[simp] theorem State.setGroup_group_self (s : State) (c sl g : Nat) (x : Group) :
    (s.setGroup c sl g x).group c sl g = x := by
  simp [State.setGroup_group]

@[simp] theorem State.setFunc_func_self (s : State) (f : Nat) (x : Func) : (s.setFunc f x).func f = x := by
  simp [State.setFunc_func]

@[simp] theorem State.setUnit_unit_self (s : State) (k : Nat) (x : Unit) : (s.setUnit k x).unit k = x := by
  simp [State.setUnit_unit]

/-- Teams of equal key are one team. -/
theorem State.team_congr (s : State) {c sl d e : Nat} (h : teamKey d e = teamKey c sl) : s.team d e = s.team c sl := by
  simp [State.team, h]

theorem State.group_congr (s : State) {c sl g d e h' : Nat} (h : groupKey d e h' = groupKey c sl g) :
    s.group d e h' = s.group c sl g := by
  simp [State.group, h]

/-- A per-function register after a write of one. -/
theorem State.setFcsr_fcsr (s : State) (f n : Nat) (v : Word) (d m : Nat) :
    (s.setFcsr f n v).fcsr d m = if d = f ∧ m = n then v else s.fcsr d m := by
  simp only [State.fcsr, State.setFcsr, State.setFunc_func]
  by_cases h : d = f
  · subst h; simp [tget_tput]
  · simp [h]

end Sys2Proof.Machine
end

