-- ==== Sys2Proof/Laws/Settle.lean ====
section
/-! SUPPORT. Laws/Settle.lean: what accounting for an issue can do: it keeps everything but clocks, stamps, PCs, event bits and
frames, and an instruction that is done stands `len` words on. -/

namespace Sys2Proof.Machine

/-! ## Keeps is a preorder, and each update it allows -/

theorem Keeps.refl (s : State) : Keeps s s := by constructor <;> intros <;> rfl

theorem Keeps.trans {s t u : State} (h : Keeps s t) (k : Keeps t u) : Keeps s u where
  groups c sl g := (k.groups c sl g).trans (h.groups c sl g)
  teams c sl := (k.teams c sl).trans (h.teams c sl)
  cores c := (k.cores c).trans (h.cores c)
  funcs f := (k.funcs f).trans (h.funcs f)
  csrs f n hn := (k.csrs f n hn).trans (h.csrs f n hn)
  units x := (k.units x).trans (h.units x)
  banks := k.banks.trans h.banks
  mem := k.mem.trans h.mem
  rowBlocks := k.rowBlocks.trans h.rowBlocks
  poison := k.poison.trans h.poison
  bad := k.bad.trans h.bad
  watch := k.watch.trans h.watch
  releasers := k.releasers.trans h.releasers
  resident := k.resident.trans h.resident
  l2tlb := k.l2tlb.trans h.l2tlb
  outStores := k.outStores.trans h.outStores
  remoteRes := k.remoteRes.trans h.remoteRes
  shoots := k.shoots.trans h.shoots
  free := k.free.trans h.free
  power := k.power.trans h.power
  domains := k.domains.trans h.domains
  linkUp := k.linkUp.trans h.linkUp
  replies := k.replies.trans h.replies
  keySlots := k.keySlots.trans h.keySlots

theorem keeps_setCore (s : State) (c : Nat) (x : Core) (h : x.content = (s.core c).content) : Keeps s (s.setCore c x) := by
  constructor <;> intros <;> try rfl
  rename_i d
  rw [State.setCore_core]
  split
  · next h' => subst h'; exact h
  · rfl

theorem keeps_setTeam (s : State) (c sl : Nat) (x : Team) (h : x.content = (s.team c sl).content) :
    Keeps s (s.setTeam c sl x) := by
  constructor <;> intros <;> try rfl
  rename_i d e
  rw [State.setTeam_team]
  split
  · next h' => rw [h, s.team_congr h']
  · rfl

theorem keeps_setGroup (s : State) (c sl g : Nat) (x : Group) (h : x.content = (s.group c sl g).content) :
    Keeps s (s.setGroup c sl g x) := by
  constructor <;> intros <;> try rfl
  rename_i d e i
  rw [State.setGroup_group]
  split
  · next h' => rw [h, s.group_congr h']
  · rfl

theorem keeps_setFunc (s : State) (f : Nat) (x : Func) (h : x.content = (s.func f).content) (hc : x.csr = (s.func f).csr) :
    Keeps s (s.setFunc f x) := by
  constructor <;> intros <;> try rfl
  · rename_i d
    rw [State.setFunc_func]
    split
    · next h' => subst h'; exact h
    · rfl
  · rename_i d m hm
    simp only [State.fcsr, State.setFunc_func]
    split
    · next h' => subst h'; rw [hc]
    · rfl

theorem keeps_counter (s : State) (f n : Nat) (v : Word) (h : isCounter n = true) : Keeps s (s.setFcsr f n v) := by
  constructor <;> intros <;> try rfl
  · rename_i d
    simp only [State.setFcsr, State.setFunc_func]
    split
    · next h' => subst h'; rfl
    · rfl
  · rename_i d m hm
    rw [State.setFcsr_fcsr, if_neg]
    rintro ⟨-, rfl⟩
    simp [h] at hm

theorem keeps_due (s : State) (ds : List Due) : Keeps s (s.due ds) := by constructor <;> intros <;> rfl

/-! ## The parts of an issue -/

theorem keeps_putCore (c : Nat) (f : Core → Core) (s : State) (h : ∀ x, (f x).content = x.content) : Keeps s (putCore c f s) :=
  keeps_setCore _ _ _ (h _)

theorem keeps_putTeam (e : Env) (f : Team → Team) (s : State) (h : ∀ x, (f x).content = x.content) : Keeps s (putTeam e f s) :=
  keeps_setTeam _ _ _ _ (h _)

theorem keeps_putGroup (e : Env) (f : Group → Group) (s : State) (h : ∀ x, (f x).content = x.content) :
    Keeps s (putGroup e f s) :=
  keeps_setGroup _ _ _ _ _ (h _)

theorem keeps_putCtx (e : Env) (f : Ctx → Ctx) (s : State) (h : ∀ x, (f x).regs = x.regs) : Keeps s (putCtx e f s) := by
  cases hr : e.ref <;> simp only [putCtx, State.setCtx, State.ctx, hr]
  · exact keeps_setCore _ _ _ (by simp only [Core.content, h])
  · exact keeps_setTeam _ _ _ _ (by simp only [Team.content, h])
  · exact keeps_setGroup _ _ _ _ _ (by simp only [Group.content, h])

theorem keeps_raiseEvent (core bitNo : Nat) (s : State) : Keeps s (raiseEvent core bitNo s) :=
  keeps_putCore _ _ _ (fun _ => rfl)

theorem keeps_sendIrq (f v : Nat) (s : State) : Keeps s (sendIrq f v s) := by
  simp only [sendIrq]
  split
  · exact Keeps.refl s
  · split
    · exact keeps_setFunc _ _ _ rfl rfl
    · constructor <;> intros <;> rfl

theorem keeps_bumpCounter (f n k : Nat) (s : State) (hk : k < 4) : Keeps s (bumpCounter f n k s) := by
  have h1 : isCounter (0x076 + 2 * k) = true := by simp [isCounter]; omega
  have h2 : isCounter (0x077 + 2 * k) = true := by simp [isCounter]; omega
  have h3 : isCounter 0x071 = true := by decide
  simp only [bumpCounter]
  split
  · exact (keeps_counter _ _ _ _ h1).trans (keeps_counter _ _ _ _ h2)
  · split
    · exact (((keeps_counter _ _ _ _ h1).trans (keeps_counter _ _ _ _ h2)).trans (keeps_counter _ _ _ _ h3)).trans
        (keeps_sendIrq _ _ _)
    · exact ((keeps_counter _ _ _ _ h1).trans (keeps_counter _ _ _ _ h2)).trans (keeps_counter _ _ _ _ h3)

theorem keeps_countEvent (f code n : Nat) (s : State) : Keeps s (countEvent f code n s) := by
  have step : ∀ k < 4, ∀ s : State,
      Keeps s (if bits (s.fcsr f (0x072 + k)).toNat 7 0 = code then bumpCounter f n k s else s) := by
    intro k hk s
    split
    · exact keeps_bumpCounter f n k s hk
    · exact Keeps.refl s
  simp only [countEvent]
  split
  · simp only [List.range, List.range.loop, List.foldl]
    exact (((step 0 (by omega) _).trans (step 1 (by omega) _)).trans (step 2 (by omega) _)).trans (step 3 (by omega) _)
  · exact Keeps.refl s

theorem keeps_setFrame (core n : Nat) (f : Frame) (s : State) : Keeps s (setFrame core n f s) :=
  keeps_putCore _ _ _ (fun _ => rfl)

theorem keeps_stopCtx (e : Env) (cause lane addr : Nat) (tpc rpc : Word) (s : State) :
    Keeps s (stopCtx e cause lane addr tpc rpc s) := by
  have told : ∀ u : State, Keeps u (raiseEvent e.core 0 (if e.isAgent || e.core == e.lower then u else raiseEvent e.lower 0 u)) := by
    intro u
    split
    · exact keeps_raiseEvent _ _ _
    · exact (keeps_raiseEvent _ _ _).trans (keeps_raiseEvent _ _ _)
  simp only [stopCtx]
  refine Keeps.trans ?_ (told _)
  split
  · refine (keeps_setFrame _ _ _ _).trans (keeps_putTeam _ _ _ ?_)
    intro _; rfl
  · refine (keeps_setFrame _ _ _ _).trans (keeps_putGroup _ _ _ ?_)
    intro _; rfl

theorem keeps_csr (s : State) (csr : Tbl Word) : Keeps s { s with csr := csr } := by
  constructor <;> intros <;> rfl

theorem keeps_takeTrap (e : Env) (cause lane addr : Nat) (tpc rpc : Word) (s : State) :
    Keeps s (takeTrap e cause lane addr tpc rpc s) := by
  cases hr : e.ref <;> simp only [takeTrap, hr]
  · refine Keeps.trans (keeps_putCore _ _ _ ?_) ((keeps_csr _ _).trans (keeps_sendIrq _ _ _))
    intro _; rfl
  · exact (keeps_stopCtx ..).trans (keeps_due _ _)
  · exact (keeps_stopCtx ..).trans (keeps_due _ _)

theorem keeps_coreTicks (core n : Nat) (s : State) : Keeps s (coreTicks core n s) := by
  simp only [coreTicks]
  split
  · refine (keeps_putCore _ _ _ ?_).trans (keeps_raiseEvent _ _ _)
    intro _; rfl
  · exact keeps_putCore _ _ _ (fun _ => rfl)

theorem keeps_time (s : State) (n : Nat) : Keeps s { s with time := n } := by constructor <;> intros <;> rfl
theorem keeps_who (s : State) : Keeps s { s with who := none } := by constructor <;> intros <;> rfl
theorem keeps_wait (s : State) : Keeps s { s with who := none, waited := true } := by constructor <;> intros <;> rfl

theorem keeps_issued (e : Env) (cost : Nat) (s : State) : Keeps s (issued e cost s) := by
  have h : Keeps s (if e.isAgent then coreTicks e.core cost { s with time := s.time + 1 }
      else countEvent e.team.f 0x01 1 (coreTicks e.core cost { s with time := s.time + 1 })) := by
    split
    · exact (keeps_time _ _).trans (keeps_coreTicks _ _ _)
    · exact ((keeps_time _ _).trans (keeps_coreTicks _ _ _)).trans (keeps_countEvent _ _ _ _)
  simp only [issued]
  split
  · refine h.trans (keeps_putCore _ _ _ ?_)
    intro _; rfl
  · refine h.trans (keeps_putTeam _ _ _ ?_)
    intro _; rfl
  · refine h.trans (keeps_putGroup _ _ _ ?_)
    intro _; rfl

theorem keeps_advance (e : Env) (pc : Word) (s : State) : Keeps s (advance e pc s) := by
  simp only [advance]
  split
  · exact keeps_putGroup _ _ _ (fun _ => rfl)
  · exact keeps_putCtx _ _ _ (fun _ => rfl)

theorem keeps_putProgress (e : Env) (p : Progress) (s : State) : Keeps s (putProgress e p s) := by
  simp only [putProgress]
  split
  · exact keeps_putGroup _ _ _ (fun _ => rfl)
  · exact keeps_putCtx _ _ _ (fun _ => rfl)

theorem keeps_crossCheck (e : Env) (seq : Bool) (next : Word) (s : State) : Keeps s (crossCheck e seq next s) := by
  simp only [crossCheck]
  split
  · exact keeps_takeTrap ..
  · exact Keeps.refl s

theorem keeps_stepCheck (e : Env) (s : State) : Keeps s (stepCheck e s) := by
  simp only [stepCheck]
  split
  · split
    · exact keeps_takeTrap ..
    · exact Keeps.refl s
  · split
    · split
      · split
        · exact Keeps.refl s
        · exact keeps_takeTrap ..
      · exact Keeps.refl s
    · exact Keeps.refl s

/-- Whatever an instruction's own work ends in, accounting keeps the state it left. -/
theorem settle_keeps (g : Gate) (e : Env) (x : Eff) : Keeps x.state (settle g e x) := by
  cases x with
  | done n s =>
    exact ((((keeps_issued _ _ _).trans (keeps_advance _ _ _)).trans (keeps_crossCheck _ _ _ _)).trans
      (keeps_stepCheck _ _)).trans (keeps_who _)
  | moved s => exact ((keeps_issued _ _ _).trans (keeps_stepCheck _ _)).trans (keeps_who _)
  | trap c l a s => exact (((keeps_issued _ _ _).trans (keeps_putProgress _ _ _)).trans (keeps_takeTrap ..)).trans (keeps_who _)
  | wait s => exact keeps_wait s

/-! ## Where the issuer stands -/

/-- Two states with the same gangs, team-scalar contexts and agent contexts. -/
def SamePcs (s t : State) : Prop :=
  (∀ c sl g, (t.group c sl g).gangs = (s.group c sl g).gangs) ∧ (∀ c sl, (t.team c sl).ctx = (s.team c sl).ctx) ∧
    ∀ c, (t.core c).ctx = (s.core c).ctx

theorem SamePcs.trans {s t u : State} (h : SamePcs s t) (k : SamePcs t u) : SamePcs s u :=
  ⟨fun c sl g => (k.1 c sl g).trans (h.1 c sl g), fun c sl => (k.2.1 c sl).trans (h.2.1 c sl),
    fun c => (k.2.2 c).trans (h.2.2 c)⟩

theorem samePcs_putCore (n : Nat) (f : Core → Core) (s : State) (h : ∀ x, (f x).ctx = x.ctx) : SamePcs s (putCore n f s) := by
  refine ⟨fun _ _ _ => rfl, fun _ _ => rfl, fun c => ?_⟩
  simp only [putCore, State.setCore_core]
  split
  · next h' => rw [h, h']
  · rfl

theorem samePcs_sendIrq (f v : Nat) (s : State) : SamePcs s (sendIrq f v s) := by
  simp only [sendIrq]
  split
  · exact ⟨fun _ _ _ => rfl, fun _ _ => rfl, fun _ => rfl⟩
  · split <;> exact ⟨fun _ _ _ => rfl, fun _ _ => rfl, fun _ => rfl⟩

theorem samePcs_stopCtx (e : Env) (cause lane addr : Nat) (tpc rpc : Word) (s : State) :
    SamePcs s (stopCtx e cause lane addr tpc rpc s) := by
  have raise : ∀ c u, SamePcs u (raiseEvent c 0 u) := fun c u => samePcs_putCore _ _ _ (by intro _; rfl)
  have told : ∀ u : State, SamePcs u (raiseEvent e.core 0 (if e.isAgent || e.core == e.lower then u else raiseEvent e.lower 0 u)) := by
    intro u
    split
    · exact raise _ _
    · exact (raise _ _).trans (raise _ _)
  simp only [stopCtx]
  refine SamePcs.trans ?_ (told _)
  split
  · refine SamePcs.trans (t := setFrame _ _ _ s) (samePcs_putCore _ _ _ (by intro _; rfl)) ⟨fun _ _ _ => rfl, fun c sl => ?_, fun _ => rfl⟩
    simp only [putTeam, State.setTeam_team]
    split
    · next h' => rw [State.team_congr _ h']
    · rfl
  · refine SamePcs.trans (t := setFrame _ _ _ s) (samePcs_putCore _ _ _ (by intro _; rfl)) ⟨fun c sl g => ?_, fun _ _ => rfl, fun _ => rfl⟩
    simp only [putGroup, State.setGroup_group]
    split
    · next h' => rw [State.group_congr _ h']
    · rfl

/-- Taking a trap moves no PC. -/
theorem takeTrap_pcs (e : Env) (cause lane addr : Nat) (tpc rpc : Word) (s : State) :
    SamePcs s (takeTrap e cause lane addr tpc rpc s) := by
  cases hr : e.ref with
  | agent n =>
    simp only [takeTrap, hr]
    refine SamePcs.trans (t := putCore n (fun x => { x with agentStopped := true, agentWork := false }) s)
      (samePcs_putCore _ _ _ (by intro _; rfl)) (SamePcs.trans ?_ (samePcs_sendIrq _ _ _))
    exact ⟨fun _ _ _ => rfl, fun _ _ => rfl, fun _ => rfl⟩
  | scalar n m =>
    simp only [takeTrap, hr]
    exact (samePcs_stopCtx ..).trans ⟨fun _ _ _ => rfl, fun _ _ => rfl, fun _ => rfl⟩
  | group n m k =>
    simp only [takeTrap, hr]
    exact (samePcs_stopCtx ..).trans ⟨fun _ _ _ => rfl, fun _ _ => rfl, fun _ => rfl⟩

theorem takeTrap_pcAt (d e : Env) (cause lane addr : Nat) (tpc rpc : Word) (s : State) :
    (takeTrap d cause lane addr tpc rpc s).pcAt e = s.pcAt e := by
  obtain ⟨hg, ht, hc⟩ := takeTrap_pcs d cause lane addr tpc rpc s
  cases hr : e.ref <;> simp [State.pcAt, hr, State.ctx, findGang, hg, ht, hc]

theorem crossCheck_pcAt (d e : Env) (seq : Bool) (next : Word) (s : State) : (crossCheck d seq next s).pcAt e = s.pcAt e := by
  simp only [crossCheck]
  split
  · exact takeTrap_pcAt ..
  · rfl

theorem stepCheck_pcAt (d e : Env) (s : State) : (stepCheck d s).pcAt e = s.pcAt e := by
  simp only [stepCheck]
  split
  · split
    · exact takeTrap_pcAt ..
    · rfl
  · split
    · split
      · split
        · rfl
        · exact takeTrap_pcAt ..
      · rfl
    · rfl

theorem find_map_gang (l : List Gang) (id : Nat) (f : Gang → Gang) (hf : ∀ x, (f x).id = x.id) :
    (l.map f).find? (fun x => x.id == id) = (l.find? (fun x => x.id == id)).map f := by
  induction l with
  | nil => rfl
  | cons a r ih =>
    simp only [List.map_cons, List.find?_cons, hf]
    split
    · rfl
    · exact ih

theorem coreTicks_group (core n : Nat) (s : State) (c sl g : Nat) : (coreTicks core n s).group c sl g = s.group c sl g := by
  simp only [coreTicks]; split <;> rfl

theorem sendIrq_group (f v : Nat) (s : State) (c sl g : Nat) : (sendIrq f v s).group c sl g = s.group c sl g := by
  simp only [sendIrq]; split
  · rfl
  · split <;> rfl

theorem bumpCounter_group (f n k : Nat) (s : State) (c sl g : Nat) : (bumpCounter f n k s).group c sl g = s.group c sl g := by
  simp only [bumpCounter]; split
  · rfl
  · split
    · rw [sendIrq_group]; rfl
    · rfl

theorem countEvent_group (f code n : Nat) (s : State) (c sl g : Nat) : (countEvent f code n s).group c sl g = s.group c sl g := by
  have step : ∀ k, ∀ s : State,
      (if bits (s.fcsr f (0x072 + k)).toNat 7 0 = code then bumpCounter f n k s else s).group c sl g = s.group c sl g := by
    intro k s
    split
    · exact bumpCounter_group ..
    · rfl
  simp only [countEvent]
  split
  · simp only [List.range, List.range.loop, List.foldl, step]
  · rfl

/-- Issuing leaves the issuing gang in its group. -/
theorem issued_gang (e : Env) (cost : Nat) (s : State) {c sl g : Nat} (hr : e.ref = .group c sl g)
    (hl : e.lower = c ∧ e.slot = sl ∧ e.gi = g) (h : (findGang (s.group c sl g) e.gang.id).isSome) :
    (findGang ((issued e cost s).group c sl g) e.gang.id).isSome := by
  obtain ⟨rfl, rfl, rfl⟩ := hl
  have ha : e.isAgent = false := by simp [Env.isAgent, hr]
  simp only [issued, hr, putGroup, State.setGroup_group_self, findGang, ha, Bool.false_eq_true, if_false]
  rw [find_map_gang _ _ _ (by intro x; split <;> rfl)]
  rw [countEvent_group, coreTicks_group, Option.isSome_map]
  exact h

theorem advance_pcAt (e : Env) (pc : Word) (s : State)
    (h : ∀ c sl g, e.ref = .group c sl g → (e.lower = c ∧ e.slot = sl ∧ e.gi = g) ∧ (findGang (s.group c sl g) e.gang.id).isSome) :
    (advance e pc s).pcAt e = some pc := by
  cases hr : e.ref with
  | agent n => simp [State.pcAt, advance, hr, putCtx, State.setCtx, State.ctx]
  | scalar n m => simp [State.pcAt, advance, hr, putCtx, State.setCtx, State.ctx]
  | group n m k =>
    obtain ⟨⟨rfl, rfl, rfl⟩, hg⟩ := h n m k hr
    simp only [State.pcAt, hr, advance, putGroup, State.setGroup_group_self, findGang]
    rw [find_map_gang _ _ _ (by intro x; split <;> rfl)]
    obtain ⟨ga, hga⟩ := Option.isSome_iff_exists.mp hg
    simp only [findGang] at hga
    have hid : (ga.id == e.gang.id) = true := List.find?_some (p := fun (x : Gang) => x.id == e.gang.id) hga
    simp [hga, beq_iff_eq.mp hid]

/-- What the environment of an issuer says of its reference. -/
theorem issuer_ref {s : State} {e : Env} (h : mkEnv s = some e) {c sl g : Nat} (hr : e.ref = .group c sl g) :
    (e.lower = c ∧ e.slot = sl ∧ e.gi = g) ∧ findGang (s.group c sl g) e.gang.id = some e.gang := by
  simp only [mkEnv] at h
  split at h
  · cases h; cases hr
  · cases h; cases hr
  · split at h
    · next hf =>
      cases h
      cases hr
      refine ⟨⟨rfl, rfl, rfl⟩, ?_⟩
      simp only [findGang] at hf ⊢
      have := List.find?_some (p := fun (x : Gang) => x.id == _) hf
      simp only [beq_iff_eq] at this
      rw [this]; exact hf
    · cases h
  · cases h

/-- An instruction that is done stands `n` words on, where its work left the issuing gang in the group. -/
theorem settle_pcAt (g : Gate) {s : State} {e : Env} (h : mkEnv s = some e) (n : Nat) (u : State)
    (hg : ∀ c sl k, e.ref = .group c sl k → (u.group c sl k).gangs = (s.group c sl k).gangs) :
    (settle g e (.done n u)).pcAt e = some (nextPc e n) := by
  have hs : (settle g e (.done n u)).pcAt e =
      (stepCheck e (crossCheck e true (nextPc e n) (advance e (nextPc e n) (issued e (gateCost g e) u)))).pcAt e := rfl
  rw [hs, stepCheck_pcAt, crossCheck_pcAt]
  refine advance_pcAt _ _ _ (fun c sl k hr => ?_)
  obtain ⟨hl, hf⟩ := issuer_ref h hr
  refine ⟨hl, issued_gang e _ u hr hl ?_⟩
  rw [findGang, hg c sl k hr, ← findGang, hf]
  rfl

/-- No instruction is half executed once it is settled. -/
theorem settle_who (g : Gate) (e : Env) (x : Eff) : (settle g e x).who = none := by cases x <;> rfl

/-! ## Instructions -/

/-- An encoded instruction whose gate lets it through does its own work. -/
theorem run_of_gate {g : Gate} {body : Env → State → Eff} {s : State} {e : Env} (h : Issues s e)
    (hg : gateTrap g e = none) : run g body s = .next (settle g e (body e s)) := by
  simp [run, h.env, h.ready, hg]

/-- An encoded instruction whose gate names a cause traps with it. -/
theorem run_of_trap {g : Gate} {body : Env → State → Eff} {s : State} {e : Env} {c : Nat} (h : Issues s e)
    (hg : gateTrap g e = some c) : run g body s = .next (settle g e (.trap c none 0 s)) := by
  simp [run, h.env, h.ready, hg]

/-- A group that a stall of R93 holds waits, whatever it is to execute. -/
theorem run_of_stall {g : Gate} {body : Env → State → Eff} {s : State} {e : Env} (h : mkEnv s = some e)
    (hs : e.stalled = true) : run g body s = .next (settle g e (.wait s)) := by
  simp [run, h, hs]

/-- No stall of R93 holds an agent. -/
theorem issues_of_agent {s : State} {e : Env} (h : mkEnv s = some e) (ha : e.isAgent = true) : Issues s e := by
  refine ⟨h, ?_⟩
  simp only [mkEnv] at h
  split at h
  · cases h; rfl
  · cases h; cases ha
  · split at h
    · cases h; cases ha
    · cases h
  · cases h

/-- Operands that are free let the instruction's work go on. -/
theorem needs_free {e : Env} {ops : List Opnd} (h : Free e ops) (s : State) (k : Eff) : needs e ops s k = k := by
  simp [needs, h.1, h.2]

/-- An instruction that completes in sequence has run. -/
theorem ran_of_done {g : Gate} {body : Env → State → Eff} {s u : State} {e : Env} {n : Nat} (h : Issues s e)
    (hg : gateTrap g e = none) (hb : body e s = .done n u)
    (hu : ∀ c sl k, e.ref = .group c sl k → (u.group c sl k).gangs = (s.group c sl k).gangs) :
    ∃ t, run g body s = .next t ∧ Ran e n u t := by
  refine ⟨_, run_of_gate h hg, ?_⟩
  rw [hb]
  exact ⟨settle_pcAt g h.env n u hu, settle_keeps g e (.done n u)⟩

/-- Writing registers leaves gangs where they stand. -/
theorem putCtx_gangs (e : Env) (f : Ctx → Ctx) (s : State) (c sl k : Nat) :
    ((putCtx e f s).group c sl k).gangs = (s.group c sl k).gangs := by
  cases hr : e.ref <;> simp only [putCtx, State.setCtx, hr]
  · rfl
  · rfl
  · rw [State.setGroup_group]
    split
    · next h => rw [State.group_congr _ h]
    · rfl

theorem putGroup_gangs (e : Env) (f : Group → Group) (h : ∀ x, (f x).gangs = x.gangs) (s : State) (c sl k : Nat) :
    ((putGroup e f s).group c sl k).gangs = (s.group c sl k).gangs := by
  simp only [putGroup, State.setGroup_group]
  split
  · next h' => rw [State.group_congr _ h', h]
  · rfl

theorem writeVs_gangs (ws : List (Nat × Nat × Word)) (x : Group) : (x.writeVs ws).gangs = x.gangs := by
  induction ws generalizing x with
  | nil => rfl
  | cons w r ih => exact ih _

theorem writePs_gangs (ws : List (Nat × Nat × Bool)) (x : Group) : (x.writePs ws).gangs = x.gangs := by
  induction ws generalizing x with
  | nil => rfl
  | cons w r ih =>
    refine (ih _).trans ?_
    simp only [Group.writeP]
    split <;> rfl

end Sys2Proof.Machine
end

