-- ==== Sys2Proof/Laws/Memory.lean ====
section
/-! SUPPORT. Laws/Memory.lean: reading after writing, and that every memory operation keeps the canonical form. -/

namespace Sys2Proof.Machine

/-! ## Reading after writing a byte -/

theorem wfFrom_mono {a b : Nat} (h : b ≤ a) : ∀ m : List Host.Cell, wfFrom a m = true → wfFrom b m = true
  | [], _ => rfl
  | (i, x) :: r, hm => by
    simp only [wfFrom, Bool.and_eq_true, decide_eq_true_eq] at hm ⊢
    exact ⟨⟨by omega, hm.1.2⟩, hm.2⟩

/-- A byte below every listed address reads as unlisted. -/
theorem readByte_below {lo a : Nat} (h : a < lo) : ∀ m : List Host.Cell, wfFrom lo m = true → readByte m a = unlistedByte
  | [], _ => rfl
  | (i, x) :: r, hm => by
    simp only [wfFrom, Bool.and_eq_true, decide_eq_true_eq] at hm
    simp only [readByte, tget]
    rw [if_neg (by omega)]
    exact readByte_below (lo := i + 1) (by omega) r hm.2

theorem readByte_writeByte_self (a : Nat) (b : Byte) : ∀ m lo, wfFrom lo m = true → readByte (writeByte m a b) a = b
  | [], _, _ => by
    simp only [writeByte]
    split
    · next h => simp [readByte, tget, h]
    · simp [readByte, tget]
  | (i, x) :: r, lo, hm => by
    have hm' := hm
    simp only [wfFrom, Bool.and_eq_true, decide_eq_true_eq] at hm
    simp only [writeByte]
    split
    · next h =>
      split
      · next hb =>
        rw [hb]
        refine readByte_below (lo := a + 1) (by omega) _ ?_
        simp only [wfFrom, Bool.and_eq_true, decide_eq_true_eq]
        exact ⟨⟨by omega, hm.1.2⟩, hm.2⟩
      · simp [readByte, tget]
    · split
      · next h =>
        subst h
        split
        · next hb => rw [hb]; exact readByte_below (lo := a + 1) (by omega) _ hm.2
        · simp [readByte, tget]
      · simp only [readByte, tget]
        rw [if_neg (by omega)]
        exact readByte_writeByte_self a b r (i + 1) hm.2

theorem readByte_writeByte_ne {a j : Nat} (b : Byte) (h : j ≠ a) :
    ∀ m : List Host.Cell, readByte (writeByte m a b) j = readByte m j
  | [] => by
    simp only [writeByte]
    split
    · rfl
    · simp [readByte, tget, Ne.symm h]
  | (i, x) :: r => by
    simp only [writeByte]
    split
    · split
      · rfl
      · simp [readByte, tget, Ne.symm h]
    · split
      · next hi =>
        subst hi
        split <;> simp [readByte, tget, Ne.symm h]
      · simp only [readByte, tget]
        split
        · rfl
        · exact readByte_writeByte_ne b h r

/-- A byte memory after a write reads the byte written there, and elsewhere as before. -/
theorem readByte_writeByte {m : List Host.Cell} (hm : Memory.wf m = true) (a j : Nat) (b : Byte) :
    readByte (writeByte m a b) j = if j = a then b else readByte m j := by
  split
  · next h => subst h; exact readByte_writeByte_self j b m 0 hm
  · next h => exact readByte_writeByte_ne b h m

/-! ## The canonical form is kept -/

theorem wfFrom_writeByte (a : Nat) (b : Byte) :
    ∀ m lo, lo ≤ a → wfFrom lo m = true → wfFrom lo (writeByte m a b) = true
  | [], lo, hl, _ => by
    simp only [writeByte]
    split
    · rfl
    · next h => simp [wfFrom, hl, h]
  | (i, x) :: r, lo, hl, hm => by
    have hm' := hm
    simp only [wfFrom, Bool.and_eq_true, decide_eq_true_eq] at hm
    simp only [writeByte]
    split
    · next h =>
      split
      · exact hm'
      · next hb =>
        simp only [wfFrom, Bool.and_eq_true, decide_eq_true_eq]
        exact ⟨⟨hl, by simpa using hb⟩, ⟨by omega, hm.1.2⟩, hm.2⟩
    · split
      · next h =>
        subst h
        split
        · exact wfFrom_mono (by omega) _ hm.2
        · next hb =>
          simp only [wfFrom, Bool.and_eq_true, decide_eq_true_eq]
          exact ⟨⟨hl, by simpa using hb⟩, hm.2⟩
      · simp only [wfFrom, Bool.and_eq_true, decide_eq_true_eq]
        exact ⟨hm.1, wfFrom_writeByte a b r (i + 1) (by omega) hm.2⟩

theorem wf_writeByte {m : List Host.Cell} (h : Memory.wf m = true) (a : Nat) (b : Byte) : Memory.wf (writeByte m a b) = true :=
  wfFrom_writeByte a b m 0 (by omega) h

theorem wf_writeCells (cs : List (Nat × Byte)) : ∀ m : List Host.Cell, Memory.wf m = true → Memory.wf (writeCells m cs) = true := by
  induction cs with
  | nil => exact fun _ h => h
  | cons c r ih => exact fun m h => ih _ (wf_writeByte h c.1 c.2)

theorem wfFrom_filter (p : Host.Cell → Bool) : ∀ m lo, wfFrom lo m = true → wfFrom lo (m.filter p) = true
  | [], _, _ => rfl
  | (i, x) :: r, lo, hm => by
    simp only [wfFrom, Bool.and_eq_true, decide_eq_true_eq] at hm
    simp only [List.filter_cons]
    split
    · simp only [wfFrom, Bool.and_eq_true, decide_eq_true_eq]
      exact ⟨hm.1, wfFrom_filter p r (i + 1) hm.2⟩
    · exact wfFrom_filter p r lo (wfFrom_mono (by omega) _ hm.2)

/-- Dropping bytes (scrubbed blocks, zeroed ways) keeps the form. -/
theorem wf_filter (p : Host.Cell → Bool) (m : List Host.Cell) (h : Memory.wf m = true) : Memory.wf (m.filter p) = true :=
  wfFrom_filter p m 0 h

/-! ## Memory operations over the state -/

theorem memoryOk_reset : MemoryOk State.reset := ⟨rfl, fun _ => rfl⟩

/-- What leaves memory and scratchpads alone keeps them canonical. -/
theorem MemoryOk.of_keeps {s t : State} (h : MemoryOk s) (k : Keeps s t) : MemoryOk t := by
  refine ⟨by rw [k.mem]; exact h.1, fun c => ?_⟩
  have := congrArg Core.spad (k.cores c)
  simp only [Core.content] at this
  rw [this]; exact h.2 c

theorem memoryOk_setCore {s : State} (h : MemoryOk s) (c : Nat) (x : Core) (hx : Memory.wf x.spad = true) :
    MemoryOk (s.setCore c x) := by
  refine ⟨h.1, fun d => ?_⟩
  rw [State.setCore_core]
  split
  · exact hx
  · exact h.2 d

theorem tget_map_snd {α β : Type} (t : Tbl α) (f : Nat → α → β) (d : α) (d' : β) (k : Nat) (hd : f k d = d') :
    tget (t.map (fun e => (e.1, f e.1 e.2))) d' k = f k (tget t d k) := by
  induction t with
  | nil => simp [tget, hd]
  | cons e r ih =>
    simp only [List.map_cons, tget]
    split
    · next h => rw [h]
    · exact ih

theorem loseReservations_mem (w l : Nat) (s : State) : (loseReservations w l s).mem = s.mem := rfl

/-- Losing reservations changes no core's scratchpad. -/
theorem loseReservations_spad (w l : Nat) (s : State) (c : Nat) : ((loseReservations w l s).core c).spad = (s.core c).spad := by
  have key := tget_map_snd s.cores (fun k (x : Core) =>
    if (x.reservation == some { line := l }) && threadId (teamKey k 0 * 128) 66 != w then { x with reservation := none } else x)
    {} {} c (by rfl)
  refine (congrArg Core.spad key).trans ?_
  simp only [State.core]
  split <;> rfl

theorem memoryOk_loseReservations {s : State} (h : MemoryOk s) (w l : Nat) : MemoryOk (loseReservations w l s) :=
  ⟨h.1, fun c => by rw [loseReservations_spad]; exact h.2 c⟩

theorem memoryOk_markRow {s : State} (h : MemoryOk s) (a : Nat) : MemoryOk (markRow a s) := by
  simp only [markRow]
  split <;> exact h

/-- A write of one byte at its home keeps the form. -/
theorem memoryOk_homeByteWrite {s : State} (h : MemoryOk s) (w a : Nat) (b : Byte) : MemoryOk (homeByteWrite w a b s) := by
  have hl := memoryOk_loseReservations h w (a / 64)
  simp only [homeByteWrite]
  split
  · exact memoryOk_setCore hl _ _ (wf_writeByte (hl.2 _) _ _)
  · exact ⟨wf_writeByte (memoryOk_markRow hl a).1 _ _, (memoryOk_markRow hl a).2⟩

theorem memoryOk_foldl {α : Type} (f : State → α → State) (hf : ∀ s a, MemoryOk s → MemoryOk (f s a)) (l : List α) :
    ∀ s, MemoryOk s → MemoryOk (l.foldl f s) := by
  induction l with
  | nil => exact fun _ h => h
  | cons a r ih => exact fun s h => ih _ (hf s a h)

theorem memoryOk_sendIrq {s : State} (h : MemoryOk s) (f v : Nat) : MemoryOk (sendIrq f v s) := h.of_keeps (keeps_sendIrq f v s)

/-- A ring record keeps the form. -/
theorem memoryOk_rawWrite {s : State} (h : MemoryOk s) (a : Nat) (bs : List Byte) : MemoryOk (rawWrite a bs s) := by
  simp only [rawWrite]
  split
  · exact h
  · have hl := memoryOk_markRow (memoryOk_foldl (fun s ln => loseReservations 0 ln s) (fun _ _ hs => memoryOk_loseReservations hs _ _)
      ((bs.zipIdx.map (fun p => (a + p.2) / 64)).eraseDups) s h) a
    exact ⟨wf_writeCells _ _ hl.1, hl.2⟩

theorem memoryOk_due {s : State} (h : MemoryOk s) (ds : List Due) : MemoryOk (s.due ds) := h
theorem memoryOk_setFcsr {s : State} (h : MemoryOk s) (f n : Nat) (v : Word) : MemoryOk (s.setFcsr f n v) := h

theorem memoryOk_ringStep {s : State} (h : MemoryOk s) (f a b c d e g i : Nat) (bs : List Byte) :
    MemoryOk (ringStep f a b c d e g i bs s).2 := by
  have raw : ∀ (lost : Bool) at_, MemoryOk (if lost then s else rawWrite at_ bs s) := by
    intro lost at_
    split
    · exact h
    · exact memoryOk_rawWrite h _ _
  simp only [ringStep]
  split
  · exact h
  · split
    · show MemoryOk (ite _ _ _)
      split
      · exact memoryOk_sendIrq (memoryOk_setFcsr h _ _ _) _ _
      · exact memoryOk_setFcsr h _ _ _
    · show MemoryOk (ite _ _ _)
      split
      · exact memoryOk_sendIrq (memoryOk_setFcsr (raw _ _) _ _ _) _ _
      · exact memoryOk_setFcsr (raw _ _) _ _ _

theorem memoryOk_errorRecords (n : Nat) : ∀ {s : State}, MemoryOk s → ∀ pa k src, MemoryOk (errorRecords n pa k src s) := by
  induction n with
  | zero => exact fun h _ _ _ => h
  | succ n ih =>
    intro s h pa k src
    simp only [errorRecords]
    split
    · exact h
    · next f _ =>
      have hr := memoryOk_ringStep h f 0x110 0x112 0x113 0x114 0x115 9 0x115
        (errorBytes (logicalOf s f (pa / 64 * 64)) (pa / 64 * 64) k src)
      simp only [errorRing]
      split
      · next heq => rw [heq] at hr; exact ih hr _ _ _
      · next heq => rw [heq] at hr; exact hr

theorem memoryOk_errorRecord {s : State} (h : MemoryOk s) (pa k src : Nat) : MemoryOk (errorRecord pa k src s) :=
  memoryOk_errorRecords 32768 h pa k src

theorem memoryOk_kickWords {s : State} (h : MemoryOk s) (cells : List (Nat × Byte)) : MemoryOk (kickWords cells s) := by
  simp only [kickWords]
  split
  · exact h
  · split
    · exact h
    · split <;> exact h

theorem memoryOk_shapePosted {s : State} (h : MemoryOk s) (f line : Nat) : MemoryOk (shapePosted f line s) := by
  simp only [shapePosted]
  exact memoryOk_foldl _ (fun _ _ hs => hs.of_keeps (keeps_raiseEvent _ _ _)) _ _ (memoryOk_due h _)

theorem memoryOk_mendBlock {s : State} (h : MemoryOk s) (a : Nat) (whole : Bool) : MemoryOk (mendBlock a whole s) := by
  simp only [mendBlock]
  split
  · exact ⟨h.1, h.2⟩
  · exact h

theorem memoryOk_lineStore {s : State} (h : MemoryOk s) (w a : Nat) (cells : List (Nat × Byte)) :
    MemoryOk (lineStore w a cells s) := by
  have hk := memoryOk_kickWords (memoryOk_foldl _ (fun s (c : Nat × Byte) hs => memoryOk_homeByteWrite hs w c.1 c.2) cells s h) cells
  simp only [lineStore]
  split
  · split
    · exact memoryOk_shapePosted hk _ _
    · exact hk
  · exact hk

/-- A write within a line keeps the form. -/
theorem memoryOk_homeLineWrite {s : State} (h : MemoryOk s) (w : Nat) (cells : List (Nat × Byte)) :
    MemoryOk (homeLineWrite w cells s) := by
  simp only [homeLineWrite]
  split
  · exact h
  · split
    · exact memoryOk_foldl _ (fun s (c : Nat × Byte) hs => memoryOk_homeByteWrite hs w c.1 c.2) _ s h
    · split
      · exact memoryOk_errorRecord h _ _ _
      · exact memoryOk_lineStore (memoryOk_mendBlock h _ _) _ _ _

/-- A write of bytes at their homes keeps the form. -/
theorem memoryOk_homeWrite {s : State} (h : MemoryOk s) (w : Nat) (cells : List (Nat × Byte)) : MemoryOk (homeWrite w cells s) :=
  memoryOk_foldl _ (fun _ _ hs => memoryOk_homeLineWrite hs _ _) _ _ h

/-- Making a line resident moves no byte. -/
theorem memoryOk_reachLine {s : State} (h : MemoryOk s) (ln : Nat) (m : List Mark) : MemoryOk (reachLine ln m s) := by
  have room : ∀ f, MemoryOk (makeRoom f s) := by
    intro f
    simp only [makeRoom]
    split
    · exact h
    · split
      · exact h
      · split <;> exact h
  simp only [reachLine]
  split
  · split <;> exact h
  · split
    · exact h
    · split
      · exact h
      · next f _ _ =>
        have hr := room f
        generalize makeRoom f s = u at hr
        have hu : MemoryOk { u with resident := tput u.resident ln (some m) } := hr
        exact hu.of_keeps (keeps_countEvent f 0x04 1 _)

theorem memoryOk_reachHomes {s : State} (h : MemoryOk s) (hs : List Nat) : MemoryOk (reachHomes hs s) :=
  memoryOk_foldl _ (fun _ _ hx => memoryOk_reachLine hx _ _) _ _ h

theorem memoryOk_writeBack {s : State} (h : MemoryOk s) (c : Nat) (p : Nat → L1Byte → Bool) : MemoryOk (writeBack c p s) := by
  have hf := fun (ds : List (Nat × L1Byte)) => memoryOk_foldl _ (fun s (ln : Nat) hs => memoryOk_homeLineWrite (memoryOk_reachHomes (s := s) hs [ln * 64])
    (oneWriter (ds.filter (fun d => d.1 / 64 == ln))) ((ds.filter (fun d => d.1 / 64 == ln)).map (fun d => (d.1, d.2.val))))
    ((ds.map (fun d => d.1 / 64)).eraseDups) s h
  simp only [writeBack, putCore]
  exact memoryOk_setCore (hf _) _ _ ((hf _).2 c)

end Sys2Proof.Machine
end

