-- ==== Sys2Proof/Tests/Slice0.lean ====
section
/-! SUPPORT. Tests/Slice0.lean: what ill-formed terms the checks refuse, words of the spec decoded, single steps with results
that the spec's examples state, and for every obligation a state and operands that meet its premises. Expected results come
from spec/ (the file is named beside each) or by hand from its rules. -/

namespace Sys2Proof.Tests

set_option linter.unusedVariables false
set_option Elab.async false

open Sys2Proof Sys2Proof.Machine

/-! ## Ill-formed terms, one for each check -/

/-- Every term of the list is refused. -/
def refused (l : List Instr) : Bool := l.all (fun i => !wellFormed i)

theorem test_pairs_must_be_even : refused [.add64 ⟨1, 2, 4, false, false⟩, .add64 ⟨2, 3, 4, false, false⟩, .sub64 ⟨2, 4, 5, false, false⟩,
    .madw ⟨1, 0, 0, 2⟩, .madw ⟨2, 0, 0, 3⟩, .mmul ⟨1, 2, 4, false, false, false⟩, .madd ⟨2, 3, 4, false, false, false⟩,
    .msub ⟨2, 4, 5, false, false, true⟩, .mred ⟨2, 3, false⟩, .nttb ⟨2, 4, 5, false, false, false⟩, .nttb ⟨2, 2, 4, false, false, false⟩,
    .modq ⟨11, false⟩, .ballot 5 0, .srd 5 17, .cfetch 0 9, .cfetchWait 0 9, .win 0 7 0, .disp ⟨0, 9, 0⟩, .dispReserve ⟨0, 9, 0⟩,
    .dispRelease ⟨0, 9, 0⟩] = true := by decide +kernel

theorem test_agent_pairs_must_be_even : refused [.saveg ⟨0, 9, 0⟩, .restg ⟨0, 9, 0⟩, .tlbinv ⟨0, 9, 0⟩, .waitev ⟨0, 9, 0⟩,
    .squash ⟨0, 9, 0⟩, .confirm ⟨0, 9, 0⟩] = true := by decide +kernel

theorem test_memory_registers_must_be_aligned : refused [.ld ⟨5, 3, 0, 0, 0⟩, .ld ⟨6, 2, 0, 0, 0⟩, .st ⟨1, 0, 0, 0, 0⟩, .st ⟨3, 0, 0, 0, 0⟩,
    .st ⟨6, 6, 0, 0, 0⟩, .sld ⟨7, 0, 0, 0, 0⟩, .sld ⟨5, 1, 0, 0, 0⟩, .sst ⟨1, 0, 0, 0, 0⟩, .sst ⟨3, 0, 0, 0, 0⟩, .sst ⟨7, 0, 0, 0, 0⟩,
    .ldfe ⟨3, 0, 0, 0, 0⟩, .ldfe ⟨1, 1, 0, 0, 0⟩, .ldfeClear ⟨2, 2, 0, 0, 0⟩] = true := by decide +kernel

theorem test_atomic_fields_are_checked : refused [.atomAdd ⟨0, 0, 0, 6, 0⟩, .atomMin ⟨0, 0, 0, 7, 0⟩, .atomMax ⟨1, 0, 0, 0, 1⟩,
    .atomMinu ⟨3, 0, 0, 0, 3⟩, .atomMaxu ⟨0, 0, 0, 6, 2⟩, .atomAnd ⟨1, 0, 0, 0, 1⟩, .atomOr ⟨0, 0, 0, 7, 0⟩, .atomXor ⟨1, 0, 0, 0, 3⟩,
    .atomSwap ⟨0, 0, 0, 6, 0⟩, .atomCas ⟨1, 0, 0, 0, 0⟩, .atomCas ⟨2, 0, 0, 0, 1⟩, .atomFadd ⟨0, 0, 0, 0, 1⟩, .atomLr ⟨1, 0, 0, 0, 1⟩,
    .atomSc ⟨0, 0, 0, 6, 0⟩, .atomLdaq ⟨0, 0, 0, 7, 0⟩, .atomStrl ⟨1, 0, 0, 0, 1⟩] = true := by decide +kernel

theorem test_reserved_values_are_refused : refused [.scmp ⟨10, 0, 0, 0, false, false⟩, .vcmp ⟨12, 0, 0, 0, false, false, false⟩,
    .cvt 15 ⟨0, 0, false⟩, .cvth false 9 ⟨0, 0, 0, false, false⟩, .cvth true 13 ⟨0, 0, 0, false, false⟩, .srd 0 18, .swr 18 ⟨0, false⟩,
    .mode 0 16, .mode 1 8, .mode 2 4, .mode 3 2, .mode 4 16, .mode 6 0, .brx ⟨⟨false, 0⟩, ⟨false, 1⟩, ⟨false, 0⟩, ⟨false, 0⟩, 0⟩ [0, 0],
    .brx ⟨⟨false, 0⟩, ⟨false, 0⟩, ⟨true, 0⟩, ⟨false, 0⟩, 1⟩ [0, 0, 0], .brx ⟨⟨false, 0⟩, ⟨false, 0⟩, ⟨false, 0⟩, ⟨false, 2⟩, 2⟩ [0, 0, 0, 0],
    .brx ⟨⟨false, 0⟩, ⟨false, 0⟩, ⟨false, 0⟩, ⟨false, 0⟩, 0⟩ [0], .fence 6 1, .fence 0 0, .fence 0 4] = true := by decide +kernel

/-! ## Decoding: words that the spec writes out -/

/-- Each word decodes, whatever follows it, to the instruction beside it. -/
def decodesTo (l : List (Word × Instr)) : Bool := l.all (fun p => decodeWords [p.1, 0xFFFFFFFF] == .ok p.2)

/-- Example words of 03, 04, 05, 06, 07, 08 and 10. -/
theorem test_decode_examples_control : decodesTo [
    (0xF0C29030, .waitev ⟨5, 8, 6⟩), (0xE0040810, .spawn 8 4 2), (0xE4000800, .postr 4), (0xE4230628, .posts 6 3 5),
    (0xF1059060, .squash ⟨11, 8, 12⟩), (0xF1259060, .confirm ⟨11, 8, 12⟩), (0x1C30000E, .setw ⟨3, true, true, 2⟩),
    (0x1D400000, .setw ⟨20, false, false, 0⟩), (0x24520000, .cfetch 5 8), (0x24520001, .cfetchWait 5 8), (0x24500002, .cland 5),
    (0x18400001, .mode 4 1), (0x1840000A, .mode 4 10), (0x18000007, .mode 0 7), (0x18500080, .mode 5 0x80), (0x84C28000, .mrs 5),
    (0x84E00A00, .mrw ⟨5, false⟩), (0x00000000, .nop), (0x00200000, .exit), (0x00400000, .yield), (0x00600000, .ret),
    (0x00800200, .join 1), (0x00A00400, .leave 2), (0x00C00000, .bkpt), (0x00E00000, .rcommit), (0x01000A00, .jmpr ⟨5, false⟩),
    (0x01000A04, .jmpr ⟨5, true⟩), (0x01200000, .fail), (0x04000010, .br 16), (0x10000011, .jmpf 17), (0x17FFFFE0, .call 0x3FFFFE0),
    (0x0C100007, .tok 1 7), (0x2C000003, .trap 3), (0x2C00000F, .handlerReturn)] = true := by decide +kernel

/-- Example words of 02, 12 and 13. -/
theorem test_decode_examples_arithmetic : decodesTo [
    (0x40008418, .saluAdd ⟨1, 2, 3, false, false⟩), (0x4451BFFD, .saddi ⟨5, 6, 0x3FFD⟩), (0x49500002, .sli 21 2),
    (0x4CC10828, .scmp ⟨6, 2, 4, 5, false, false⟩), (0x514182A9, .valuShl ⟨3, 1, 21, false, false, true⟩),
    (0x50010211, .valuAdd ⟨2, 1, 2, false, false, true⟩), (0x54208001, .vaddi ⟨2, 2, 1⟩), (0x6A1020C6, .madw ⟨4, 2, 3, 6⟩),
    (0x58008620, .vcmp ⟨0, 1, 3, 4, false, false, false⟩), (0x5C018210, .plogAnd 3 1 2), (0x640420C4, .fma ⟨1, 2, 3, 4⟩),
    (0x6CE08400, .cvt 7 ⟨1, 2, false⟩), (0x71640230, .cvth false 11 ⟨8, 1, 6, false, false⟩), (0x74A01400, .modq ⟨10, false⟩),
    (0x74820C41, .nttb ⟨4, 6, 8, false, false, true⟩), (0x7402_0C40, .mmul ⟨4, 6, 8, false, false, false⟩),
    (0x53210218, .div ⟨2, 1, 3, false, false, false⟩), (0x80018221, .shfi ⟨3, 1, 4, false, false, true⟩),
    (0x80218210, .shup ⟨3, 1, 2, false, false, false⟩), (0x80418210, .shdn ⟨3, 1, 2, false, false, false⟩),
    (0x80618221, .shxr ⟨3, 1, 4, false, false, true⟩), (0x80808400, .vany 1 2), (0x80A08400, .vall 1 2), (0x80C20400, .ballot 4 2),
    (0x80E28800, .radd ⟨5, 4, false⟩), (0x81028800, .rmin ⟨5, 4, false⟩), (0x81228800, .rmax ⟨5, 4, false⟩),
    (0x81428800, .fradd ⟨5, 4, false⟩), (0x81628800, .frmin ⟨5, 4, false⟩), (0x81828800, .frmax ⟨5, 4, false⟩),
    (0x81A30400, .scadd ⟨6, 2, false⟩), (0x81C30400, .scaddx ⟨6, 2, false⟩), (0x81E48418, .qapp 9 2 3),
    (0x84028620, .v2s ⟨5, 3, 4, false, false⟩), (0x84238400, .s2v ⟨7, 2, false⟩), (0x84400008, .srd 0 1),
    (0x84601278, .swr 15 ⟨9, false⟩), (0x84830000, .p2v 6), (0x84A00C00, .v2p ⟨6, false⟩)] = true := by decide +kernel

/-- R260: A, B, QA, QB and X of P2V, and D, B, QB and X of V2P, are reserved. -/
theorem test_p2v_v2p_reserved : ([0x84830001, 0x84834000, 0x84A00C01, 0x84B00C00, 0x84A00D00] : List Word).all
    (fun w => decodeWords [w] == .error .reservedField) = true := by decide +kernel

/-- Example words of 14 to 22 and 26. -/
theorem test_decode_examples_memory : decodesTo [
    (0xAC000000, .win 0 0 0), (0xAC320002, .win 3 8 2), (0xACF10003, .win 15 4 3), (0xF0659060, .tlbinv ⟨11, 8, 12⟩),
    (0x92041800, .ld ⟨4, 2, 3, 0, 0⟩), (0x9688317F, .st ⟨5, 4, 6, 2, 0x7F⟩), (0x9A0FF884, .sld ⟨4, 7, 63, 1, 4⟩),
    (0x9E0C2080, .sst ⟨4, 6, 4, 1, 0⟩), (0x93900C00, .ld ⟨7, 8, 1, 8, 0⟩), (0xA3100C00, .ldfeClear ⟨2, 8, 1, 8, 0⟩),
    (0xA4010604, .atomAdd ⟨2, 3, 0, 1, 0⟩), (0xA522062C, .atomCas ⟨4, 3, 1, 3, 0⟩), (0xA561060C, .atomLr ⟨2, 3, 0, 3, 0⟩),
    (0xA582060C, .atomSc ⟨4, 3, 0, 3, 0⟩), (0xB0010630, .pref ⟨2, 3, 6, false⟩), (0xC001A000, .copy ⟨3, 2, false⟩),
    (0xC4000008, .waitc 8), (0xC4000005, .waitc 5), (0xD0020A30, .aalloc ⟨4, 5, 6, false, false⟩), (0xD0200800, .afree ⟨4, false⟩),
    (0xD0440838, .adrain ⟨8, 4, 7, false, false⟩), (0xD0600828, .azero ⟨4, 5, false, false⟩), (0xD0848800, .aquery ⟨9, 4, false⟩),
    (0xC81B51B8, .mloop ⟨54, 5, 55, false, false⟩), (0xCC006C00, .mwait ⟨54, false⟩), (0xD8000828, .bkld ⟨4, 5, false, false⟩),
    (0xD8200830, .bkrun ⟨4, 6, false, false⟩), (0xD8448838, .bkwait ⟨9, 4, 7, false, false⟩), (0xD8640850, .bkrd ⟨8, 4, 10, false, false⟩),
    (0xD8800860, .bkst ⟨4, 12, false, false⟩), (0xA8000610, .fence 3 2), (0xA8000418, .fence 2 3), (0xA8000A08, .fence 5 1),
    (0xA8200000, .bar 0), (0xA8200600, .bar 3), (0xA8400200, .arrive 1), (0xA8600200, .waitb 1), (0xF0859000, .csrrd 11 8),
    (0xF0A01060, .csrwr 8 12), (0xF0259060, .saveg ⟨11, 8, 12⟩), (0xF0459060, .restg ⟨11, 8, 12⟩), (0xA40D7E2E, .atomAdd ⟨26, 63, 1, 3, 2⟩)] =
    true := by decide +kernel

/-- The instructions of more than one word, as 08 lays them out. -/
theorem test_decode_long :
    decodeWords [0x08680100, 0x20000010, 0x20000020, 0x20000004] =
      .ok (.brx ⟨⟨false, 1⟩, ⟨true, 2⟩, ⟨false, 0⟩, ⟨false, 0⟩, 1⟩ [0x20000010, 0x20000020, 0x20000004]) ∧
    decodeWords [0x28500000, 0x3FC00000] = .ok (.movl 5 0x3FC00000) ∧
    decodeWords [0x28900001, 0x3FC00000] = .ok (.movlScalar 9 0x3FC00000) ∧
    decodeWords [0x20000010] = .ok (.tgt 0x20000010) := by decide +kernel

/-- The words of "Ten words decoded" in 08 that no kind of team executes. -/
theorem test_decode_refusals :
    decodeWords [0x6B000000] = .ok (.unassignedEncoding 0x6B000000) ∧ decodeWords [0x40008419] = .error .reservedField ∧
    decodeWords [0xA1800000] = .error .reservedField ∧ decodeWords [0xF8000000] = .ok (.unassignedEncoding 0xF8000000) ∧
    decodeWords [0xF1800000] = .ok (.unassignedEncoding 0xF1800000) ∧ decodeWords [] = .error .noWord := by decide +kernel

/-- The microwords of 19 (an example under R355), and one of a reserved kind. -/
theorem test_decode_microwords :
    decodeMicroword 0x8600001000000000 = some (.waitbc ⟨6, 0, 0, 0, false, 0, 8, 0, 0, 0, 0, 0, 0, 0, 0, false, 0⟩) ∧
    decodeMicroword 0x0012004232000000 = some (.next ⟨0, 1, 1, 0, false, 1, 1, 0, 6, 1, 0, 0, 0, 0, 0, false, 0⟩) ∧
    decodeMicroword 0x60000002FA208000 = some (.halt ⟨0, 0, 0, 0, false, 0, 1, 3, 7, 1, 1, 0, 2, 0, 0, false, 0⟩) ∧
    decodeMicroword 0xC000000000000000 = none := by decide +kernel

/-! ## Decoding: a word of each row of the opcode table

The words are put together from the table's `match` value and a value in each of its fields. -/

theorem test_decode_sys : decodesTo [
    (0x00000000, .nop),
    (0x00200000, .exit),
    (0x00400000, .yield),
    (0x00600000, .ret),
    (0x00800A00, .join 5),
    (0x00A00A00, .leave 5),
    (0x00C00000, .bkpt),
    (0x00E00000, .rcommit),
    (0x01002804, .jmpr ⟨20, true⟩),
    (0x01200000, .fail)] = true := by decide +kernel

theorem test_decode_salu_low : decodesTo [
    (0x40062924, .saluAdd ⟨12, 20, 36, true, false⟩),
    (0x40262924, .saluSub ⟨12, 20, 36, true, false⟩),
    (0x40462924, .saluMul ⟨12, 20, 36, true, false⟩),
    (0x40662924, .saluMulhi ⟨12, 20, 36, true, false⟩),
    (0x40862924, .mulhu ⟨12, 20, 36, true, false⟩),
    (0x40A62924, .saluAnd ⟨12, 20, 36, true, false⟩),
    (0x40C62924, .saluOr ⟨12, 20, 36, true, false⟩),
    (0x40E62924, .saluXor ⟨12, 20, 36, true, false⟩),
    (0x41062924, .saluAndn ⟨12, 20, 36, true, false⟩),
    (0x41262924, .saluShl ⟨12, 20, 36, true, false⟩),
    (0x41462924, .saluShr ⟨12, 20, 36, true, false⟩)] = true := by decide +kernel

theorem test_decode_salu_high : decodesTo [
    (0x41662924, .saluSar ⟨12, 20, 36, true, false⟩),
    (0x41862924, .saluMin ⟨12, 20, 36, true, false⟩),
    (0x41A62924, .saluMax ⟨12, 20, 36, true, false⟩),
    (0x41C62924, .minu ⟨12, 20, 36, true, false⟩),
    (0x41E62924, .maxu ⟨12, 20, 36, true, false⟩),
    (0x42062804, .saluClz ⟨12, 20, true⟩),
    (0x42262804, .saluPopc ⟨12, 20, true⟩),
    (0x42462804, .saluBrev ⟨12, 20, true⟩),
    (0x42662804, .saluMov ⟨12, 20, true⟩),
    (0x42862924, .add64 ⟨12, 20, 36, true, false⟩),
    (0x42A62924, .sub64 ⟨12, 20, 36, true, false⟩)] = true := by decide +kernel

theorem test_decode_valu_low : decodesTo [
    (0x50062925, .valuAdd ⟨12, 20, 36, true, false, true⟩),
    (0x50262925, .valuSub ⟨12, 20, 36, true, false, true⟩),
    (0x50462925, .valuMul ⟨12, 20, 36, true, false, true⟩),
    (0x50662925, .valuMulhi ⟨12, 20, 36, true, false, true⟩),
    (0x50862925, .valuMin ⟨12, 20, 36, true, false, true⟩),
    (0x50A62925, .valuMax ⟨12, 20, 36, true, false, true⟩),
    (0x50C62925, .valuAnd ⟨12, 20, 36, true, false, true⟩),
    (0x50E62925, .valuOr ⟨12, 20, 36, true, false, true⟩),
    (0x51062925, .valuXor ⟨12, 20, 36, true, false, true⟩),
    (0x51262925, .valuAndn ⟨12, 20, 36, true, false, true⟩),
    (0x51462925, .valuShl ⟨12, 20, 36, true, false, true⟩),
    (0x51662925, .valuShr ⟨12, 20, 36, true, false, true⟩),
    (0x51862925, .valuSar ⟨12, 20, 36, true, false, true⟩),
    (0x51A62925, .rotl ⟨12, 20, 36, true, false, true⟩)] = true := by decide +kernel

theorem test_decode_valu_high : decodesTo [
    (0x51C62804, .valuClz ⟨12, 20, true⟩),
    (0x51E62804, .valuPopc ⟨12, 20, true⟩),
    (0x52062804, .valuBrev ⟨12, 20, true⟩),
    (0x52262804, .abs ⟨12, 20, true⟩),
    (0x52462804, .neg ⟨12, 20, true⟩),
    (0x52662804, .valuMov ⟨12, 20, true⟩),
    (0x52862925, .sel ⟨12, 20, 36, true, false, true⟩),
    (0x52A62925, .bfe ⟨12, 20, 36, true, false, true⟩),
    (0x52C62925, .bfi ⟨12, 20, 36, true, false, true⟩),
    (0x52E62925, .addsat ⟨12, 20, 36, true, false, true⟩),
    (0x53062925, .subsat ⟨12, 20, 36, true, false, true⟩),
    (0x53262925, .div ⟨12, 20, 36, true, false, true⟩),
    (0x53462925, .rem ⟨12, 20, 36, true, false, true⟩)] = true := by decide +kernel

theorem test_decode_float : decodesTo [
    (0x60062925, .fadd ⟨12, 20, 36, true, false, true⟩),
    (0x60262925, .fsub ⟨12, 20, 36, true, false, true⟩),
    (0x60462925, .fmul ⟨12, 20, 36, true, false, true⟩),
    (0x60662925, .fmin ⟨12, 20, 36, true, false, true⟩),
    (0x60862925, .fmax ⟨12, 20, 36, true, false, true⟩),
    (0x60A62804, .fabs ⟨12, 20, true⟩),
    (0x60C62804, .fneg ⟨12, 20, true⟩),
    (0x60E62804, .frcp ⟨12, 20, true⟩),
    (0x61062804, .frsq ⟨12, 20, true⟩),
    (0x61262804, .fsqrt ⟨12, 20, true⟩),
    (0x61462804, .fex2 ⟨12, 20, true⟩),
    (0x61662804, .flg2 ⟨12, 20, true⟩),
    (0x61862804, .frnd ⟨12, 20, true⟩),
    (0x61A62925, .fdiv ⟨12, 20, 36, true, false, true⟩)] = true := by decide +kernel

theorem test_decode_fma : decodesTo [
    (0x6431492C, .fma ⟨12, 20, 36, 44⟩),
    (0x6531492C, .fms ⟨12, 20, 36, 44⟩),
    (0x6631492C, .fnma ⟨12, 20, 36, 44⟩),
    (0x6731492C, .fnms ⟨12, 20, 36, 44⟩)] = true := by decide +kernel

theorem test_decode_modular : decodesTo [
    (0x74062925, .mmul ⟨12, 20, 36, true, false, true⟩),
    (0x74262925, .madd ⟨12, 20, 36, true, false, true⟩),
    (0x74462925, .msub ⟨12, 20, 36, true, false, true⟩),
    (0x74662804, .mred ⟨12, 20, true⟩),
    (0x74862925, .nttb ⟨12, 20, 36, true, false, true⟩),
    (0x74A02804, .modq ⟨20, true⟩)] = true := by decide +kernel

theorem test_decode_cross_lane : decodesTo [
    (0x80062925, .shfi ⟨12, 20, 36, true, false, true⟩),
    (0x80262925, .shup ⟨12, 20, 36, true, false, true⟩),
    (0x80462925, .shdn ⟨12, 20, 36, true, false, true⟩),
    (0x80662925, .shxr ⟨12, 20, 36, true, false, true⟩),
    (0x80820A00, .vany 4 5),
    (0x80A20A00, .vall 4 5),
    (0x80C60A00, .ballot 12 5),
    (0x80E62804, .radd ⟨12, 20, true⟩),
    (0x81062804, .rmin ⟨12, 20, true⟩),
    (0x81262804, .rmax ⟨12, 20, true⟩),
    (0x81462804, .fradd ⟨12, 20, true⟩),
    (0x81662804, .frmin ⟨12, 20, true⟩),
    (0x81862804, .frmax ⟨12, 20, true⟩),
    (0x81A62804, .scadd ⟨12, 20, true⟩),
    (0x81C62804, .scaddx ⟨12, 20, true⟩),
    (0x81E61630, .qapp 12 11 6)] = true := by decide +kernel

theorem test_decode_moves : decodesTo [
    (0x84062924, .v2s ⟨12, 20, 36, true, false⟩),
    (0x84262804, .s2v ⟨12, 20, true⟩),
    (0x84460028, .srd 12 5),
    (0x8460282C, .swr 5 ⟨20, true⟩),
    (0x84860000, .p2v 12),
    (0x84A02804, .v2p ⟨20, true⟩),
    (0x84C60000, .mrs 12),
    (0x84E02804, .mrw ⟨20, true⟩)] = true := by decide +kernel

theorem test_decode_atomics : decodesTo [
    (0xA406292E, .atomAdd ⟨12, 20, 9, 3, 2⟩),
    (0xA426292E, .atomMin ⟨12, 20, 9, 3, 2⟩),
    (0xA446292E, .atomMax ⟨12, 20, 9, 3, 2⟩),
    (0xA466292E, .atomMinu ⟨12, 20, 9, 3, 2⟩),
    (0xA486292E, .atomMaxu ⟨12, 20, 9, 3, 2⟩),
    (0xA4A6292E, .atomAnd ⟨12, 20, 9, 3, 2⟩),
    (0xA4C6292E, .atomOr ⟨12, 20, 9, 3, 2⟩),
    (0xA4E6292E, .atomXor ⟨12, 20, 9, 3, 2⟩),
    (0xA506292E, .atomSwap ⟨12, 20, 9, 3, 2⟩),
    (0xA526292E, .atomCas ⟨12, 20, 9, 3, 2⟩),
    (0xA546292E, .atomFadd ⟨12, 20, 9, 3, 2⟩),
    (0xA566292E, .atomLr ⟨12, 20, 9, 3, 2⟩),
    (0xA586292E, .atomSc ⟨12, 20, 9, 3, 2⟩),
    (0xA5A6292E, .atomLdaq ⟨12, 20, 9, 3, 2⟩),
    (0xA5C6292E, .atomStrl ⟨12, 20, 9, 3, 2⟩)] = true := by decide +kernel

theorem test_decode_barriers : decodesTo [
    (0xA8000818, .fence 4 3),
    (0xA8200A00, .bar 5),
    (0xA8400A00, .arrive 5),
    (0xA8600A00, .waitb 5)] = true := by decide +kernel

theorem test_decode_accumulators : decodesTo [
    (0xD0062924, .aalloc ⟨12, 20, 36, true, false⟩),
    (0xD0202804, .afree ⟨20, true⟩),
    (0xD0462924, .adrain ⟨12, 20, 36, true, false⟩),
    (0xD0602924, .azero ⟨20, 36, true, false⟩),
    (0xD0862804, .aquery ⟨12, 20, true⟩)] = true := by decide +kernel

theorem test_decode_bank : decodesTo [
    (0xD8002924, .bkld ⟨20, 36, true, false⟩),
    (0xD8202924, .bkrun ⟨20, 36, true, false⟩),
    (0xD8462924, .bkwait ⟨12, 20, 36, true, false⟩),
    (0xD8662924, .bkrd ⟨12, 20, 36, true, false⟩),
    (0xD8802924, .bkst ⟨20, 36, true, false⟩)] = true := by decide +kernel

theorem test_decode_agent : decodesTo [
    (0xF0062920, .disp ⟨12, 20, 36⟩),
    (0xF0262920, .saveg ⟨12, 20, 36⟩),
    (0xF0462920, .restg ⟨12, 20, 36⟩),
    (0xF0662920, .tlbinv ⟨12, 20, 36⟩),
    (0xF0862800, .csrrd 12 20),
    (0xF0A02920, .csrwr 20 36),
    (0xF0C62920, .waitev ⟨12, 20, 36⟩),
    (0xF0E02800, .hostirq 20),
    (0xF1062920, .squash ⟨12, 20, 36⟩),
    (0xF1262920, .confirm ⟨12, 20, 36⟩)] = true := by decide +kernel

theorem test_decode_others_1 : decodesTo [
    (0x06ABCDEF, .br 44813807),
    (0x0C401555, .tok 4 5461),
    (0x12ABCDEF, .jmpf 44813807),
    (0x16ABCDEF, .call 44813807),
    (0x18400009, .mode 4 9),
    (0x1CC0000D, .setw ⟨12, true, true, 1⟩),
    (0x24C50000, .cfetch 12 20),
    (0x24C50001, .cfetchWait 12 20),
    (0x24C00002, .cland 12),
    (0x2C000005, .trap 5),
    (0x2C00000F, .handlerReturn),
    (0x44C51555, .saddi ⟨12, 20, 5461⟩),
    (0x48C01555, .sli 12 5461),
    (0x4D222924, .scmp ⟨9, 4, 20, 36, true, false⟩)] = true := by decide +kernel

theorem test_decode_others_2 : decodesTo [
    (0x54C51555, .vaddi ⟨12, 20, 5461⟩),
    (0x59222925, .vcmp ⟨9, 4, 20, 36, true, false, true⟩),
    (0x5C020A30, .plogAnd 4 5 6),
    (0x5C220A30, .plogOr 4 5 6),
    (0x5C420A30, .plogXor 4 5 6),
    (0x5C620A30, .plogAndn 4 5 6),
    (0x5C820A00, .plogNot 4 5),
    (0x5CA20A00, .plogMov 4 5),
    (0x6831492C, .mad ⟨12, 20, 36, 44⟩),
    (0x6931492C, .madhi ⟨12, 20, 36, 44⟩),
    (0x6A31492C, .madw ⟨12, 20, 36, 44⟩),
    (0x6CE62804, .cvt 7 ⟨12, 20, true⟩),
    (0x73662924, .cvth true 11 ⟨12, 20, 36, true, false⟩),
    (0x9218A4D5, .ld ⟨4, 12, 20, 9, 85⟩)] = true := by decide +kernel

theorem test_decode_others_3 : decodesTo [
    (0x9618A4D5, .st ⟨4, 12, 20, 9, 85⟩),
    (0x9A18A4D5, .sld ⟨4, 12, 20, 9, 85⟩),
    (0x9E18A4D5, .sst ⟨4, 12, 20, 9, 85⟩),
    (0xA118A4D5, .ldfe ⟨2, 12, 20, 9, 85⟩),
    (0xA318A4D5, .ldfeClear ⟨2, 12, 20, 9, 85⟩),
    (0xACD50002, .win 13 20 2),
    (0xB0021720, .pref ⟨4, 11, 36, false⟩),
    (0xC0025004, .copy ⟨4, 5, true⟩),
    (0xC40000A5, .waitc 165),
    (0xC8065124, .mloop ⟨12, 5, 36, true, false⟩),
    (0xCC002804, .mwait ⟨20, true⟩),
    (0xE0062830, .spawn 12 20 6),
    (0xE4002800, .postr 20),
    (0xE4261720, .posts 12 11 36)] = true := by decide +kernel

/-! ## States to test with

A group of sixteen threads on core 0, one of team-scalar mode, an agent, a W16 group, and a group of a stack core; their gang
stands at 0x1008, in slot 1. -/

/-- Vector registers, each with its lanes' values, as the group's table. -/
def lanesTable (n : Nat) (regs : List (Nat × List Word)) : Tbl Word :=
  (List.range n).flatMap (fun l => regs.map (fun r => (vKey r.1 l, r.2.getD l 0)))

def team1 : Team :=
  { status := .running, f := 1, teamsz := 16, nteam := 2, g := 16, ngrp := 1, producer := some 0, header := 0x200, scratch := 0x1000,
    slots := [(1, { st := .landed })] }

/-- One gang of a group, of the lanes given. -/
def group1 (c : Ctx) (v : Tbl Word) (lanes : BitVec 64 := 0xFFFF) (pc : Word := 0x1008) : Group :=
  { ctx := c, v := v, gangs := [{ id := 3, pc := pc, lanes := lanes }], present := 0xFFFF, current := 3, nextGang := 5 }

def groupState (core : Nat) (t : Team) (g : Group) (x : Core := {}) : State :=
  { who := some (.ctx (.group core 0 0) 3), power := .service, cores := [(core, x)], teams := [(teamKey core 0, t)],
    groups := [(groupKey core 0 0, { g with core := core })] }

def scalarState (c : Ctx) (pc : Word := 0x1008) : State :=
  { who := some (.ctx (.scalar 0 0) 0), power := .service, cores := [(0, {})],
    teams := [(0, { team1 with status := .scalar, g := 0, ngrp := 0, ctx := { c with pc := pc } })] }

def agentState (c : Ctx) (x : Core := {}) : State :=
  { who := some (.ctx (.agent 0) 0), power := .service, cores := [(0, { x with ctx := { c with pc := 0x1008 } })] }

def envOf (s : State) : Env :=
  (mkEnv s).getD { ref := .agent 0, core := 0, lower := 0, slot := 0, gi := 0, team := {}, ctx := {}, group := {}, gang := { id := 0, pc := 0, lanes := 0 } }

/-- Whether an outcome is a next state of which `p` holds. -/
def nextHas (o : Host.Outcome State Fault Refusal) (p : State → Bool) : Bool :=
  match o with
  | .next t => p t
  | _ => false

def mrOf (type : Nat) (rnd : Nat := 0) : Word := word (0x80 + type + 16 * rnd)

/-! ## Single steps -/

/-- 02, R228: `add s1, s2, s3` wraps, and the PC moves one word. -/
theorem test_add_wraps : nextHas (exec (.saluAdd ⟨1, 2, 3, false, false⟩) (scalarState { s := [(2, 0xFFFFFFFF), (3, 2)] })) (fun t =>
    (t.team 0 0).ctx.readS 1 == 1 && (t.team 0 0).ctx.pc == 0x100C) = true := by decide +kernel

/-- R228: ADD64 carries into the high word. -/
theorem test_add64_carries : nextHas (exec (.add64 ⟨0, 2, 4, false, false⟩)
    (scalarState { s := [(2, 0xFFFFFFFF), (3, 7), (4, 1), (5, 0x10)] })) (fun t =>
    (t.team 0 0).ctx.readS 0 == 0 && (t.team 0 0).ctx.readS 1 == 0x18) = true := by decide +kernel

/-- 12, the example of R231: bytes of v1 shift by 0, 3, 2 and 1 under I8. -/
theorem test_shl_bytes : nextHas (exec (.valuShl ⟨3, 1, 21, false, false, true⟩) (groupState 0 team1 (group1
    { mr := mrOf 13, s := [(21, 0x01020300)] } (lanesTable 16 [(1, List.replicate 16 0x41838101)])))) (fun t =>
    (t.group 0 0 0).readV 3 15 == 0x820C0801) = true := by decide +kernel

/-- R31: a division by zero gives all ones, in a W16 team. -/
theorem test_div_by_zero : nextHas (exec (.div ⟨3, 1, 2, false, false, false⟩) (groupState 0 { team1 with w16 := true } (group1
    { mr := mrOf 0 } (lanesTable 16 [(1, [0x80000000, 7]), (2, [0xFFFFFFFF, 0])])))) (fun t =>
    (t.group 0 0 0).readV 3 0 == 0x80000000 && (t.group 0 0 0).readV 3 1 == 0xFFFFFFFF) = true := by decide +kernel

/-- 11, the example of R221: lanes 0 to 3 hold 1, 2^24, 1 and -2^24; the sum is 1 under RNE and 3 under RUP. -/
theorem test_fradd_tree :
    let s := fun (rnd : Nat) => groupState 0 team1 (group1 { mr := mrOf 4 rnd }
      (lanesTable 16 [(4, [0x3F800000, 0x4B800000, 0x3F800000, 0xCB800000])]))
    nextHas (exec (.fradd ⟨5, 4, false⟩) (s 0)) (fun t => (t.group 0 0 0).readV 5 9 == 0x3F800000) = true ∧
    nextHas (exec (.fradd ⟨5, 4, false⟩) (s 3)) (fun t => (t.group 0 0 0).readV 5 9 == 0x40400000) = true := by decide +kernel

/-- 12, the example of R242: the element words of 0.625, 1.5 and -1.875 under Z4, exact. -/
theorem test_cvth_example : nextHas (exec (.cvth false 11 ⟨8, 1, 6, false, false⟩) (groupState 0 team1 (group1
    { mr := mrOf 4, s := [(6, 0x7F)] } (lanesTable 16 [(1, 0x3F200000 :: 0 :: 0x3FC00000 :: List.replicate 12 0 ++ [0xBFF00000])])))) (fun t =>
    [0, 1, 2, 15].map ((t.group 0 0 0).readV 8) == [0x7F80800A, 0x7F808000, 0x7F80000C, 0x7F80001F] && (t.group 0 0 0).ctx.exc == 0) =
    true := by decide +kernel

/-- 12, the example of R245: a butterfly modulo 97. -/
theorem test_nttb_example : nextHas (exec (.nttb ⟨4, 6, 8, false, false, true⟩) (groupState 0 team1 (group1
    { qmod := 97, s := [(8, 64)] } (lanesTable 16 [(4, List.replicate 16 5), (6, List.replicate 16 10)])))) (fun t =>
    (t.group 0 0 0).readV 4 3 == 63 && (t.group 0 0 0).readV 5 3 == 0 && (t.group 0 0 0).readV 6 3 == 44) = true := by decide +kernel

/-- 15, the example of R293: a Z4 group in scratchpad gives the element words of 12's example. -/
theorem test_ld_group_example : nextHas (exec (.ld ⟨7, 8, 1, 8, 0⟩) (groupState 0 team1 (group1
    { mr := mrOf 11, win := [(8, { kind := .spad })] } (lanesTable 16 [(1, List.replicate 16 0x202)]))
    { spad := [(0x200, 0xA4), (0x201, 0x7F), (0x202, 0x80), (0x203, 0x7D), (0x204, 0x0A), (0x205, 0x30), (0x20D, 0xF8)] })) (fun t =>
    (t.group 0 0 0).ctx.results.any (fun r => [vKey 8 0, vKey 8 1, vKey 8 2, vKey 8 15].map (tget r.writes 0) ==
      [0x7F80800A, 0x7F808000, 0x7F80000C, 0x7F80001F])) = true := by decide +kernel

/-- R251: the source beyond the segment is the lane itself. -/
theorem test_shdn_edge : nextHas (exec (.shdn ⟨3, 1, 2, false, false, false⟩) (groupState 0 team1 (group1 {}
    (lanesTable 16 [(1, (List.range 16).map (fun l => word (100 + l))), (2, List.replicate 16 1)])))) (fun t =>
    (t.group 0 0 0).readV 3 14 == 115 && (t.group 0 0 0).readV 3 15 == 115) = true := by decide +kernel

/-- R199: CALL pushes the return PC on the quads of the gang alone. -/
theorem test_call_pushes : nextHas (exec (.call 2) (groupState 0 team1 (group1 {} [] 0x00F3))) (fun t =>
    (t.group 0 0 0).stack 0 == [{ pc := 0x100C, lanes := 0x3 }] && (t.group 0 0 0).stack 1 == [{ pc := 0x100C, lanes := 0xF0 }] &&
      (t.group 0 0 0).stack 2 == [] && (t.group 0 0 0).gangs.map (·.pc) == [0x1010]) = true := by decide +kernel

/-- R389: a TRAP records its cause, its lanes and both PCs, and stops the group; R388: the agent's TRAP event is set. -/
theorem test_trap_frame : nextHas (exec (.trap 3) (groupState 0 team1 (group1 {} [] 0x0F00))) (fun t =>
    let f := (t.core 0).frame 0
    f.new && f.cause == 0x1F3 && f.lane == 8 && f.tpc == 0x1008 && f.rpc == 0x100C && f.gang == 0x0F00 &&
      (t.group 0 0 0).stopped && (t.core 0).events.getLsbD 0) = true := by decide +kernel

/-- R3: a store through a scratchpad window is little-endian; R264: below a negative offset. -/
theorem test_sst_bytes : nextHas (exec (.sst ⟨4, 6, 63, 1, 0x7F⟩) (groupState 0 team1 (group1
    { s := [(6, 0x11223344)], win := [(1, { kind := .spad, frame := 0x108 })] } []))) (fun t =>
    (t.core 0).spad == [(0x104, 0x44), (0x105, 0x33), (0x106, 0x22), (0x107, 0x11)]) = true := by decide +kernel

/-- R301: a signed minimum takes the lower value of two of opposite sign, lanes in ascending order. -/
theorem test_atom_min : nextHas (exec (.atomMin ⟨2, 3, 1, 1, 0⟩) (groupState 0 team1 (group1
    { win := [(1, { kind := .spad })] } (lanesTable 16 [(2, [5, 0xFFFFFFFE]), (3, List.replicate 16 0x40)])) { spad := [(0x40, 7)] })) (fun t =>
    readBytes (t.core 0).spad 0x40 4 == [0xFE, 0xFF, 0xFF, 0xFF] &&
      (t.group 0 0 0).ctx.results.any (fun r => tget r.writes 0 (vKey 2 0) == 7 && tget r.writes 0 (vKey 2 1) == 5)) =
    true := by decide +kernel

/-- R58: a free slot is asked for and none held: DISP with an index answers 3. -/
theorem test_disp_unreserved : nextHas (exec (.disp ⟨11, 8, 12⟩) (agentState { s := [(9, 0x10000), (12, 5)] })) (fun t =>
    (t.core 0).ctx.readS 11 == 3 || (t.core 0).agentStopped) = true := by decide +kernel

/-- R465: the first step after reset enters service with function 0 enabled. -/
theorem test_reset_step : nextHas (step State.reset) (fun t => t.power == .service && (t.func 0).enabled) = true := by decide +kernel

/-- The word placed for the first step is the one that runs: `sli s10, -1` leaves all ones (12, R229). -/
theorem test_fetch_first : nextHas (step (State.reset.withFetchWord 32 0x48A03FFF)) (fun t =>
    (t.group 0 0 0).ctx.readS 10 == 0xFFFFFFFF) = true := by decide +kernel

/-- FIPS 180-4: the digest of "abc" begins DDAF35A1; FIPS 197, 4.2: 57 times 83 is C1. -/
theorem test_sha512_abc : (sha512 [0x61, 0x62, 0x63]).take 4 = [0xDD, 0xAF, 0x35, 0xA1] ∧ gfMul 0x11B 0x57 0x83 = 0xC1 := by
  decide +kernel

/-- R428: a symbol in error is corrected, and so are two. -/
theorem test_code_states : codeState [] = .good ∧ codeState [(3, 0x5A)] = .correctable ∧ codeState [(0, 1), (1, 0xFF)] = .correctable := by
  decide +kernel

/-! ## Premises met: tools -/

theorem env_of {s : State} (h : (mkEnv s).isSome = true) : mkEnv s = some (envOf s) := by
  unfold envOf
  cases k : mkEnv s with
  | none => rw [k] at h; cases h
  | some e => rfl

theorem issues_of {s : State} (h : ((mkEnv s).isSome && !(envOf s).stalled) = true) : Issues s (envOf s) := by
  simp only [Bool.and_eq_true, Bool.not_eq_true'] at h
  exact ⟨env_of h.1, h.2⟩

theorem free_of {e : Env} {ops : List Opnd}
    (h : (!ops.any (fun o => e.ctx.pending o.sc o.reg) && (firstEmpty e ops).isNone) = true) : Free e ops := by
  simpa [Free, Option.isNone_iff_eq_none] using h

theorem vec_of {s : State} {named : List Nat} (h : ((mkEnv s).isSome && !(envOf s).stalled && (envOf s).isGroup && !(envOf s).active.isEmpty &&
    named.all (fun r => decide (r < (envOf s).team.regs))) = true) : VecIssuer s (envOf s) named := by
  simp only [Bool.and_eq_true, Bool.not_eq_true', List.all_eq_true, decide_eq_true_eq] at h
  exact ⟨⟨env_of h.1.1.1.1, h.1.1.1.2⟩, h.1.1.2, h.1.2, h.2⟩

theorem whole_of {s : State} (h : ((mkEnv s).isSome && !(envOf s).stalled && (envOf s).isGroup && maskOf (envOf s).active == (envOf s).gang.lanes &&
    (envOf s).gang.lanes == (envOf s).group.live) = true) : WholeGroup s (envOf s) := by
  simp only [Bool.and_eq_true, Bool.not_eq_true', beq_iff_eq] at h
  exact ⟨⟨env_of h.1.1.1.1, h.1.1.1.2⟩, h.1.1.2, h.1.2, h.2⟩

theorem fits_of {e : Env} {acc : Bool} {d : Nat} {srcs : List VSrc}
    (h : (acc && (!wideType (mrType e.ctx.mr) || (d % 2 == 0 && srcs.all (fun x => x.reg % 2 == 0))) &&
      (unitRegs (wideType (mrType e.ctx.mr)) d ++ srcs.flatMap (VSrc.vregs (wideType (mrType e.ctx.mr)))).all
        (fun r => decide (r < e.team.regs))) = true) : Fits e acc d srcs := by
  simp only [Bool.and_eq_true, Bool.or_eq_true, Bool.not_eq_true', beq_iff_eq, List.all_eq_true, decide_eq_true_eq] at h
  exact ⟨h.1.1, fun w => h.1.2.resolve_left (by rw [w]; exact Bool.noConfusion), h.2⟩

theorem typed_of {e : Env} {acc : Bool} {d : Nat} {srcs : List VSrc}
    (h : (acc && (!wideType (mrType e.ctx.mr) || (d % 2 == 0 && srcs.all (fun x => x.reg % 2 == 0))) &&
      (unitRegs (wideType (mrType e.ctx.mr)) d ++ srcs.flatMap (VSrc.vregs (wideType (mrType e.ctx.mr)))).all
        (fun r => decide (r < e.team.regs))) = true) (hf : Free e (typedOpnds e d srcs)) : Typed e acc d srcs :=
  ⟨fits_of h, hf⟩

/-- Whether a part of an instruction's work succeeds. -/
def succeeds {ε α : Type} (x : Try ε α) : Bool :=
  match x.1 with
  | .ok _ => true
  | .error _ => false

theorem ok_of {ε α : Type} {x : Try ε α} (h : succeeds x = true) : ∃ v u, x = (.ok v, u) := by
  obtain ⟨_ | v, u⟩ := x
  · cases h
  · exact ⟨v, u, rfl⟩

theorem tget_all {α : Type} {t : Tbl α} {d : α} {p : α → Bool} (h : t.all (fun x => p x.2) = true) (hd : p d = true) (k : Nat) :
    p (tget t d k) = true := by
  induction t with
  | nil => exact hd
  | cons x r ih =>
    simp only [List.all_cons, Bool.and_eq_true] at h
    simp only [tget]
    split
    · exact h.1
    · exact ih h.2

theorem clean_of {s : State} {core : Nat}
    (h : (s.core core).l1.all (fun x => match x.2 with
      | some b => !b.dirty
      | none => true) = true) : L1Clean s core := by
  intro x hx b hb
  simpa [hb] using List.all_eq_true.mp h x hx

theorem memoryOk_of {s : State} (h : (Memory.wf s.mem && s.cores.all (fun c => Memory.wf c.2.spad)) = true) : MemoryOk s := by
  simp only [Bool.and_eq_true] at h
  exact ⟨h.1, fun c => tget_all (p := fun x : Core => Memory.wf x.spad) h.2 (by decide) c⟩

/-! ## Premises met: scalar and vector instructions -/

def sScalar : State := scalarState {}
def sGroup : State := groupState 0 team1 (group1 {} [])
def sAgent : State := agentState {}

/-- A gang with no active lane: its guard is !p0. -/
def sMaskedAll : State := groupState 0 team1 (group1 { mr := 0x2080, s := [(4, 0xFFFFFFFF)] } [])

theorem witness_salu_two_sources : Issues sScalar (envOf sScalar) ∧ (envOf sScalar).profileL = false ∧
    Free (envOf sScalar) [srcS 2 true, srcS 3 true, srcS 62 false, srcS 63 false, dstS 0, dstS 1] ∧
    Free (envOf sScalar) [srcS 2 true, srcS 62 false, dstS 0] :=
  ⟨issues_of (by decide +kernel), by decide +kernel, free_of (by decide +kernel), free_of (by decide +kernel)⟩

theorem witness_salu_others : Issues sAgent (envOf sAgent) ∧ (envOf sAgent).profileL = false ∧
    Free (envOf sAgent) [srcS 63 true, dstS 0] ∧ Free (envOf sAgent) [srcS 5, dstS 63] ∧ Free (envOf sAgent) [dstS 63] ∧
    Free (envOf sAgent) [srcS 2 false, srcS 3 true] ∧ (9 : BitVec 5).toNat ≤ 9 :=
  ⟨issues_of (by decide +kernel), by decide +kernel, free_of (by decide +kernel), free_of (by decide +kernel), free_of (by decide +kernel),
    free_of (by decide +kernel), by decide⟩

/-- Word 1022 is the last at which a literal lies in the slot. -/
theorem witness_movl :
    (let s := groupState 0 team1 (group1 {} [] 0x1 0x1FF8)
     VecIssuer s (envOf s) [63] ∧ Free (envOf s) [dstV 63] ∧ pcWord (envOf s).gang.pc ≠ 1023) ∧
    (let s := scalarState {} 0x1FF8
     Issues s (envOf s) ∧ (envOf s).profileL = false ∧ Free (envOf s) [dstS 63] ∧ pcWord (envOf s).gang.pc ≠ 1023) ∧
    (let s := scalarState {} 0x1FFC
     Issues s (envOf s) ∧ (envOf s).profileL = false ∧ (envOf s).isAgent = false ∧ pcWord (envOf s).gang.pc = 1023) ∧
    (envOf sAgent).isAgent = true :=
  ⟨⟨vec_of (by decide +kernel), free_of (by decide +kernel), by decide +kernel⟩,
    ⟨issues_of (by decide +kernel), by decide +kernel, free_of (by decide +kernel), by decide +kernel⟩,
    ⟨issues_of (by decide +kernel), by decide +kernel, by decide +kernel, by decide +kernel⟩, by decide +kernel⟩

/-- A group under a type, with a scalar operand; the same of a 64-bit type, where pairs are even; a W16 team without one. -/
def sTyped (type : Nat) : State := groupState 0 team1 (group1 { mr := mrOf type } [])
def sLegacy (type : Nat) : State := groupState 0 { team1 with w16 := true } (group1 { mr := mrOf type } [])

theorem witness_valu_two_sources :
    (let r : RArgs := ⟨3, 1, 21, true, true, true⟩
     VecIssuer (sTyped 14) (envOf (sTyped 14)) (rNamed r) ∧ ((envOf (sTyped 14)).profileL = true → r.x = false) ∧
      Typed (envOf (sTyped 14)) (intType 14) 3 (rSrcs r) ∧ mrType (envOf (sTyped 14)).ctx.mr = 14) ∧
    (let r : RArgs := ⟨62, 60, 58, false, false, false⟩
     VecIssuer (sTyped 3) (envOf (sTyped 3)) (rNamed r) ∧ Typed (envOf (sTyped 3)) (intType 3) 62 (rSrcs r)) ∧
    (let r : RArgs := ⟨3, 1, 2, false, false, false⟩
     VecIssuer (sLegacy 12) (envOf (sLegacy 12)) (rNamed r) ∧ ((envOf (sLegacy 12)).profileL = true → r.x = false) ∧
      Typed (envOf (sLegacy 12)) (12 ≤ 14) 3 (rSrcs r)) :=
  ⟨⟨vec_of (by decide +kernel), by decide +kernel, typed_of (by decide +kernel) (free_of (by decide +kernel)), by decide +kernel⟩,
    ⟨vec_of (by decide +kernel), typed_of (by decide +kernel) (free_of (by decide +kernel))⟩,
    ⟨vec_of (by decide +kernel), by decide +kernel, typed_of (by decide +kernel) (free_of (by decide +kernel))⟩⟩

theorem witness_valu_one_source : VecIssuer (sTyped 13) (envOf (sTyped 13)) [63, 0] ∧
    Typed (envOf (sTyped 13)) (intType 13) 63 [.v 0 true] ∧ VecIssuer (sTyped 14) (envOf (sTyped 14)) [63, 0] ∧
    Typed (envOf (sTyped 14)) (14 ≤ 14) 63 [.v 0 false] :=
  ⟨vec_of (by decide +kernel), typed_of (by decide +kernel) (free_of (by decide +kernel)), vec_of (by decide +kernel),
    typed_of (by decide +kernel) (free_of (by decide +kernel))⟩

theorem witness_valu_fields :
    (let r : RArgs := ⟨2, 4, 6, false, false, true⟩
     VecIssuer (sTyped 3) (envOf (sTyped 3)) (rNamed r) ∧ ((envOf (sTyped 3)).profileL = true → r.x = false) ∧
      Typed (envOf (sTyped 3)) (3 ≤ 3) 2 (rSrcs r ++ [.v 2 false]) ∧ Typed (envOf (sTyped 3)) (3 ≤ 3) 2 (rSrcs r)) ∧
    (let r : RArgs := ⟨3, 1, 2, false, false, false⟩
     VecIssuer (sLegacy 1) (envOf (sLegacy 1)) (rNamed r) ∧ (envOf (sLegacy 1)).profileL = true ∧
      Typed (envOf (sLegacy 1)) (1 ≤ 1) 3 (rSrcs r)) :=
  ⟨⟨vec_of (by decide +kernel), by decide +kernel, typed_of (by decide +kernel) (free_of (by decide +kernel)),
      typed_of (by decide +kernel) (free_of (by decide +kernel))⟩,
    ⟨vec_of (by decide +kernel), by decide +kernel, typed_of (by decide +kernel) (free_of (by decide +kernel))⟩⟩

theorem witness_multiply_add :
    VecIssuer (sTyped 2) (envOf (sTyped 2)) [4, 62] ∧ Typed (envOf (sTyped 2)) (intType 2) 4 [.v 62 false] ∧
    (let r : QArgs := ⟨4, 2, 60, 6⟩
     VecIssuer (sTyped 3) (envOf (sTyped 3)) (qNamed r) ∧ Typed (envOf (sTyped 3)) (3 ≤ 3) 4 (qSrcs r)) ∧
    (let r : QArgs := ⟨62, 3, 5, 60⟩
     VecIssuer (sTyped 1) (envOf (sTyped 1)) (qNamed r ++ [63, 61]) ∧ mrType (envOf (sTyped 1)).ctx.mr ≤ 1 ∧
      Free (envOf (sTyped 1)) [srcV 3, srcV 5, srcV 60, srcV 61, dstV 62, dstV 63]) :=
  ⟨vec_of (by decide +kernel), typed_of (by decide +kernel) (free_of (by decide +kernel)),
    ⟨vec_of (by decide +kernel), typed_of (by decide +kernel) (free_of (by decide +kernel))⟩,
    ⟨vec_of (by decide +kernel), by decide +kernel, free_of (by decide +kernel)⟩⟩

theorem witness_predicates :
    (let r : VcmpArgs := ⟨9, 7, 62, 4, true, false, true⟩
     let e := envOf (sTyped 3)
     VecIssuer (sTyped 3) e ([62] ++ []) ∧ (e.profileL = true → r.x = false) ∧ mrType e.ctx.mr ≤ 3 ∧ r.c.toNat ≤ 9 ∧
      (∀ x ∈ VSrc.vregs true (.v 62 r.qa) ++ VSrc.vregs true (bSrc r.x r.b r.qb), x < e.team.regs) ∧
      Free e (VSrc.opnds true (.v 62 r.qa) ++ VSrc.opnds true (bSrc r.x r.b r.qb))) ∧ VecIssuer (sTyped 3) (envOf (sTyped 3)) [] :=
  ⟨⟨vec_of (by decide +kernel), by decide +kernel, by decide +kernel, by decide, by decide +kernel, free_of (by decide +kernel)⟩,
    vec_of (by decide +kernel)⟩

/-- F64 pairs under UNO, and F32 words under GE with a scalar operand. -/
theorem witness_predicates_of_floats :
    (let r : VcmpArgs := ⟨11, 7, 62, 4, true, false, false⟩
     let e := envOf (sTyped 5)
     VecIssuer (sTyped 5) e ([62] ++ [4]) ∧ (e.profileL = true → r.x = false) ∧ mrType e.ctx.mr = tF64 ∧ r.a.toNat % 2 = 0 ∧
      r.b.toNat % 2 = 0 ∧ (∀ x ∈ VSrc.vregs true (.v 62 r.qa) ++ VSrc.vregs true (bSrc r.x r.b r.qb), x < e.team.regs) ∧
      Free e (VSrc.opnds true (.v 62 r.qa) ++ VSrc.opnds true (bSrc r.x r.b r.qb))) ∧
    (let r : VcmpArgs := ⟨5, 7, 63, 4, true, false, true⟩
     let e := envOf (sTyped 4)
     VecIssuer (sTyped 4) e ([63] ++ []) ∧ mrType e.ctx.mr = tF32 ∧
      (∀ x ∈ VSrc.vregs false (.v 63 r.qa) ++ VSrc.vregs false (bSrc r.x r.b r.qb), x < e.team.regs) ∧
      Free e (VSrc.opnds false (.v 63 r.qa) ++ VSrc.opnds false (bSrc r.x r.b r.qb))) :=
  ⟨⟨vec_of (by decide +kernel), by decide +kernel, by decide +kernel, by decide, by decide, by decide +kernel, free_of (by decide +kernel)⟩,
    vec_of (by decide +kernel), by decide +kernel, by decide +kernel, free_of (by decide +kernel)⟩

theorem witness_float_rounded :
    (let r : RArgs := ⟨3, 1, 21, false, false, true⟩
     VecIssuer (sTyped 7) (envOf (sTyped 7)) (rNamed r) ∧
      ((envOf (sTyped 7)).profileL = true → r.x = false) ∧ Typed (envOf (sTyped 7)) (okFloat 7) 3 (rSrcs r)) ∧
    (let q : QArgs := ⟨62, 2, 60, 6⟩
     VecIssuer (sTyped 5) (envOf (sTyped 5)) (qNamed q) ∧
      Typed (envOf (sTyped 5)) (okFloat 5) 62 (qSrcs q)) :=
  ⟨⟨vec_of (by decide +kernel), by decide +kernel, typed_of (by decide +kernel) (free_of (by decide +kernel))⟩,
    vec_of (by decide +kernel), typed_of (by decide +kernel) (free_of (by decide +kernel))⟩

/-- Under OVF 3 lane 1 of a sum overflows and lane 0 does not; of lane 0 alone, none does (`Rounds`). -/
theorem witness_overflow :
    let s := fun (lanes : BitVec 64) => groupState 0 team1
      (group1 { mr := 0x184 } (lanesTable 16 [(1, [0x3F800000, 0x7F7FFFFF]), (2, [0x3F800000, 0x7F7FFFFF])]) lanes)
    let k := roundingOf 0x184
    let bad := fun (lanes : BitVec 64) (l : Nat) =>
      let val := fun (r : Nat) => floatVal 4 k.ftz ((envOf (s lanes)).group.readUnit false r l)
      (deliver k 4 [val 1, val 2] ((val 1).add false (val 2))).overflows
    mrOvf (envOf (s 3)).ctx.mr = 3 ∧ (envOf (s 3)).active.find? (bad 3) = some 1 ∧ (envOf (s 1)).active.all (fun l => !bad 1 l) = true ∧
      mrOvf (envOf (sTyped 7)).ctx.mr ≠ 3 := by decide +kernel

theorem witness_float_others :
    (VecIssuer (sTyped 6) (envOf (sTyped 6)) [63, 0] ∧ Typed (envOf (sTyped 6)) (okFloat 6) 63 [.v 0 true]) ∧
    (let q : RArgs := ⟨3, 1, 21, false, false, false⟩
     VecIssuer (sLegacy 4) (envOf (sLegacy 4)) (rNamed q) ∧ ((envOf (sLegacy 4)).profileL = true → q.x = false) ∧
      Typed (envOf (sLegacy 4)) (okFloat 4) 3 (rSrcs q) ∧
      (envOf (sLegacy 4)).profileL = true ∧ Typed (envOf (sLegacy 4)) (okFdiv 4) 3 (rSrcs q)) :=
  ⟨⟨vec_of (by decide +kernel), typed_of (by decide +kernel) (free_of (by decide +kernel))⟩,
    vec_of (by decide +kernel), by decide +kernel, typed_of (by decide +kernel) (free_of (by decide +kernel)),
    by decide +kernel, typed_of (by decide +kernel) (free_of (by decide +kernel))⟩

/-- What succeeded, or nothing. -/
def okVal {ε α : Type} (d : α) : Except ε α → α
  | .ok x => x
  | .error _ => d

theorem witness_conversions :
    (let s := sTyped 4
    let e := envOf s
    let n := cvtCount 4 7
    VecIssuer s e (cvtRegs 4 n 2 ++ cvtRegs 7 n 1) ∧
      Free e ((cvtRegs 4 n 2).map (fun x => srcV x false) ++ (cvtRegs 7 n 1).map dstV) ∧ zType 7 = false ∧
      (zType 4 && intType 7) = false ∧ 2 % (cvtRegs 4 n 2).length = 0 ∧ 1 % (cvtRegs 7 n 1).length = 0 ∧ 2 ∈ cvtRegs 4 n 2 ∧
      1 ∈ cvtRegs 7 n 1 ∧ ∀ l ∈ e.active, cvtLane e 4 7 n 2 l = .ok (okVal ([], 0) (cvtLane e 4 7 n 2 l))) ∧
    (let s := groupState 0 team1 (group1 { mr := mrOf 4, s := [(6, 0xFE)] } [])
    let e := envOf s
    VecIssuer s e [8, 1] ∧ Free e [srcV 1 false, srcS 6 false, dstV 8] ∧ e.profileL = false ∧ mrType e.ctx.mr = tF32 ∧
      ((s.ctx e.ref).readS 6).toNat < 0xFF ∧ ∀ k ∈ (List.range 4).filter (fun k => e.active.any (fun l => l / 16 == k)),
    quantiseH (roundingOf e.ctx.mr) 11 0xFE false (blockVals e 1 k) =
    .ok (okVal ({ ge := 0, mu := 0, els := [] }, 0) (quantiseH (roundingOf e.ctx.mr) 11 0xFE false (blockVals e 1 k)))) :=
  ⟨⟨vec_of (by decide +kernel), free_of (by decide +kernel), by decide +kernel⟩, ⟨vec_of (by decide +kernel),
    free_of (by decide +kernel), by decide +kernel⟩⟩

/-- BF16 halves 1.0 and -2.0 to F32; a block whose lane 5 holds -2.0, its other lanes zeros of both signs, under scale 0x7F. -/
theorem witness_conversions_exact :
    (let s := groupState 0 team1 (group1 { mr := mrOf 7 } (lanesTable 16 [(1, List.replicate 16 0xC0003F80)]))
     let e := envOf s
     VecIssuer s e [1, 4, 5] ∧ mrType e.ctx.mr = 7 ∧ mrFtz e.ctx.mr = false ∧ Free e [srcV 1 true, dstV 4, dstV 5] ∧
      e.active.all (fun l => (List.range 2).all (fun i => ((e.group.readV 1 l).extractLsb' (16 * i) 16).extractLsb' 7 8 != 0xFF)) = true) ∧
    (let s := groupState 0 team1 (group1 { mr := mrOf 4, s := [(6, 0x7F)] }
       (lanesTable 16 [(1, [0, 0x80000000, 0, 0, 0, 0xC0000000])]))
     let e := envOf s
     let x := fun l => e.group.readV 1 l
     let exp := ((x 5).extractLsb' 23 8).toNat
     VecIssuer s e [8, 1] ∧ Free e [srcV 1 false, srcS 6 false, dstV 8] ∧ e.profileL = false ∧ mrType e.ctx.mr = tF32 ∧
      ((s.ctx e.ref).readS 6).toNat = 0x7F ∧ (List.range 4).filter (fun k => e.active.any (fun l => l / 16 == k)) = [0] ∧
      5 ∈ e.active ∧ (x 5).extractLsb' 0 23 = 0 ∧ 0 < exp ∧ exp < 255 ∧ 0x7F ≤ exp + 128 ∧ exp + 128 - 0x7F ≤ 254 ∧
      e.active.all (fun l => l == 5 || (x l).extractLsb' 0 31 == 0) = true) :=
  ⟨⟨vec_of (by decide +kernel), by decide +kernel, by decide +kernel, free_of (by decide +kernel), by decide +kernel⟩,
    vec_of (by decide +kernel), free_of (by decide +kernel), by decide +kernel⟩

theorem witness_modular :
    (let s := groupState 0 team1 (group1 { qmod := 3 } [])
     let r : RArgs := ⟨4, 6, 8, false, false, true⟩
     let e := envOf s
     e.profileL = false ∧ isStack e.core = false ∧ VecIssuer s e ((rNamed r).flatMap (fun x => [x, x + 1])) ∧ e.ctx.qmod ≠ 0 ∧
      Free e ((rSrcs r).flatMap (VSrc.opnds true) ++ (unitRegs true 4).map dstV) ∧
      Free e ((rSrcs r ++ [VSrc.v 4 r.qa]).flatMap (VSrc.opnds true) ++ (unitRegs true 4).map dstV) ∧
      VecIssuer s e [62, 63, 6, 7] ∧ Free e (VSrc.opnds true (VSrc.v 6 true) ++ (unitRegs true 62).map dstV)) ∧
    (let s := groupState 0 team1 (group1 { s := [(10, 0xFFFFFFFF), (11, 0x7FFFFFFF)] } [])
     let e := envOf s
     Issues s e ∧ e.isGroup = true ∧ Free e [srcS 10 false, srcS 11 false] ∧ e.ctx.readUnit true 10 % 2 = 1 ∧
      3 ≤ e.ctx.readUnit true 10 ∧ e.ctx.readUnit true 10 < 2 ^ 63) :=
  ⟨⟨by decide +kernel, by decide +kernel, vec_of (by decide +kernel), by decide +kernel, free_of (by decide +kernel),
      free_of (by decide +kernel), vec_of (by decide +kernel), free_of (by decide +kernel)⟩,
    issues_of (by decide +kernel), by decide +kernel, free_of (by decide +kernel), by decide +kernel, by decide +kernel, by decide +kernel⟩

theorem witness_shuffles :
    let e := envOf sGroup
    let r : RArgs := ⟨63, 0, 4, false, true, true⟩
    VecIssuer sGroup e (rNamed r) ∧ (e.profileL = true → r.x = false) ∧ Free e ((rSrcs r).flatMap (VSrc.opnds false) ++ [dstV 63]) ∧
      VecIssuer sGroup e [] ∧ VecIssuer sGroup e [62, 63] ∧ Free e [dstV 62, dstV 63] :=
  ⟨vec_of (by decide +kernel), by decide +kernel, free_of (by decide +kernel), vec_of (by decide +kernel), vec_of (by decide +kernel),
    free_of (by decide +kernel)⟩

theorem witness_reductions :
    let e := envOf (sTyped 0)
    VecIssuer (sTyped 0) e [63, 0] ∧ e.seg = 2 ^ 4 ∧ Typed e (intType 0) 63 [.v 0 false] ∧ Typed e (0 ≤ 3) 63 [.v 0 false] ∧
      (envOf (sTyped 6)).seg = 2 ^ 4 ∧ Typed (envOf (sTyped 6)) (okFloat 6) 63 [.v 0 true] :=
  ⟨vec_of (by decide +kernel), by decide +kernel, typed_of (by decide +kernel) (free_of (by decide +kernel)),
    typed_of (by decide +kernel) (free_of (by decide +kernel)), by decide +kernel,
    typed_of (by decide +kernel) (free_of (by decide +kernel))⟩

/-- Window 2 is the last word of the extent; window 3 stands past it. -/
theorem witness_qapp :
    let s := groupState 0 team1 (group1 { win := [(2, { kind := .spad, frame := 0xFFC }), (3, { kind := .spad, frame := 0x1000 })] } [])
    let e := envOf s
    let win := e.ctx.window 2
    VecIssuer s e [9] ∧ Free e [dstV 9] ∧ win.kind = .spad ∧ win.frame % 4 = 0 ∧ win.frame + 4 ≤ e.team.extent ∧
      (e.ctx.window 3).kind = .spad ∧ (e.ctx.window 3).frame % 4 = 0 ∧ e.team.extent < (e.ctx.window 3).frame + 4 ∧
      (homePlaces win.frame (spadWord e win.frame)).any (lockHit s e.core e.team.f .atomic) = false ∧ e.segments = [0] :=
  ⟨vec_of (by decide +kernel), free_of (by decide +kernel), by decide +kernel⟩

/-- V2S of a lane beyond the grant and of one not present; values of MR with a reserved bit, of TYPE 15 and of RND 5. -/
theorem witness_moves_refused :
    (let s := groupState 0 team1 { group1 { s := [(4, 16), (5, 15), (6, 0x4000), (7, 0xF), (8, 0x50)] }
       (lanesTable 16 [(9, [0x4000]), (10, [0x5F]), (11, [16])]) 0x7FFF with present := 0x7FFF }
     let e := envOf s
     let sr := fun k => (s.ctx e.ref).readS k
     Issues s e ∧ e.isGroup = true ∧ e.isScalar = false ∧ e.profileL = false ∧ 63 < e.team.regs ∧
      Free e [srcV 63 true, srcS 4 false, dstS 7] ∧ e.g ≤ (sr 4).toNat ∧ sr 4 ≠ BitVec.allOnes 32 ∧
      e.group.present.getLsbD (sr 5).toNat = false ∧ Free e [srcS 6 false] ∧ (sr 6).extractLsb' 14 18 ≠ 0 ∧
      (sr 7).extractLsb' 14 18 = 0 ∧ (sr 7).extractLsb' 0 4 = 15 ∧ 5 ≤ ((sr 8).extractLsb' 4 3).toNat ∧
      VecIssuer s e [9] ∧ Free e [srcV 9 true] ∧ (e.group.readV 9 (e.active.headD 0)).extractLsb' 14 18 ≠ 0 ∧
      (e.group.readV 10 (e.active.headD 0)).extractLsb' 0 4 = 15 ∧ 16 ≤ (e.group.readV 11 (e.active.headD 0)).toNat) ∧
    (Issues sMaskedAll (envOf sMaskedAll) ∧ (envOf sMaskedAll).active = [] ∧
      ((sMaskedAll.ctx (envOf sMaskedAll).ref).readS 4) = BitVec.allOnes 32) ∧
    (VecIssuer sGroup (envOf sGroup) [63] ∧ Free (envOf sGroup) [dstV 63]) :=
  ⟨⟨issues_of (by decide +kernel), by decide +kernel, by decide +kernel, by decide +kernel, by decide +kernel, free_of (by decide +kernel),
      by decide +kernel, by decide +kernel, by decide +kernel, free_of (by decide +kernel), by decide +kernel, by decide +kernel,
      by decide +kernel, by decide +kernel, vec_of (by decide +kernel), free_of (by decide +kernel), by decide +kernel⟩,
    ⟨issues_of (by decide +kernel), by decide +kernel⟩, vec_of (by decide +kernel), free_of (by decide +kernel)⟩

theorem witness_moves :
    (let s := groupState 0 team1 (group1 { s := [(4, 0xFFFFFFFF), (5, 15)] } [])
    let e := envOf s
    Issues s e ∧ Free e [srcV 63 true, srcS 4 false, dstS 7] ∧ Free e [srcV 63 true, srcS 5 false, dstS 7] ∧
      e.isGroup = true ∧ e.profileL = false ∧ 63 < e.team.regs ∧ (s.ctx e.ref).readS 4 = BitVec.allOnes 32 ∧
      e.active.head? = some 0 ∧ (s.ctx e.ref).readS 5 ≠ BitVec.allOnes 32 ∧ 15 = ((s.ctx e.ref).readS 5).toNat ∧ 15 < e.g ∧
      e.group.present.getLsbD 15 = true) ∧
    (let e := envOf sGroup
    VecIssuer sGroup e [7] ∧ Free e [srcS 2 true, dstV 7] ∧ VecIssuer sGroup e (unitRegs true 62) ∧
      Free e ((unitRegs true 62).map dstV) ∧ VecIssuer sGroup e (unitRegs false 63) ∧ Free e ((unitRegs false 63).map dstV) ∧
      Free e [dstV 7] ∧ Free e [dstS 5] ∧ Free e [srcS 5 false] ∧ Issues sGroup e ∧ e.profileL = false ∧
      e.isScalar = false ∧ mrCause ((sGroup.ctx e.ref).readS 5).toNat = none) ∧
    (let s := groupState 0 team1 (group1 {} (lanesTable 16 [(9, [15]), (10, [14])]))
    let e := envOf s
    VecIssuer s e [9] ∧ Free e [srcV 9 false] ∧ VecIssuer s e [10] ∧ Free e [srcV 10 false] ∧
      (e.group.readV 9 (e.active.headD 0)).toNat < 16 ∧ mrCause (e.group.readV 10 (e.active.headD 0)).toNat = none) :=
  ⟨⟨issues_of (by decide +kernel), free_of (by decide +kernel), free_of (by decide +kernel), by decide +kernel⟩,
    ⟨vec_of (by decide +kernel), free_of (by decide +kernel), vec_of (by decide +kernel), free_of (by decide +kernel),
    vec_of (by decide +kernel), free_of (by decide +kernel), free_of (by decide +kernel), free_of (by decide +kernel),
    free_of (by decide +kernel), issues_of (by decide +kernel), by decide +kernel⟩, ⟨vec_of (by decide +kernel),
    free_of (by decide +kernel), vec_of (by decide +kernel), free_of (by decide +kernel), by decide +kernel⟩⟩

/-! ## Premises met: control, barriers and fences -/

/-- Target words to the first and the last word of the slot. -/
def brxTs : List Word := [0x20000010, 0x23FFFFFE, 0x200003FD]

/-- Where a branch of the group's gang leads. -/
def branchTo (x : BitVec 26) : Word := (envOf sGroup).gang.pc + (x.signExtend 32 <<< 2)

theorem witness_branches :
    Issues sGroup (envOf sGroup) ∧ (envOf sGroup).isGroup = true ∧
      pcSlot (branchTo 1021) = pcSlot (envOf sGroup).gang.pc ∧ pcSlot (branchTo 1022) ≠ pcSlot (envOf sGroup).gang.pc ∧
      checkTarget (envOf sGroup) (branchTo 0x3FFFFFE) = none ∧ brxTs.length = (1 : BitVec 2).toNat + 2 ∧
      brxTs.length + pcWord (envOf sGroup).gang.pc ≤ 1023 ∧ brxTs.all (fun w => w.extractLsb' 26 6 == 8) = true ∧
      brxTs.all (fun w => pcSlot (branchTo (w.extractLsb' 0 26)) == pcSlot (envOf sGroup).gang.pc) = true :=
  ⟨issues_of (by decide +kernel), by decide +kernel⟩

theorem witness_branches_of_lanes :
    (let s := groupState 0 team1 (group1 {} (lanesTable 16 [(5, List.replicate 16 0x1FFC)]))
     VecIssuer s (envOf s) [5] ∧ Free (envOf s) [srcV 5 true] ∧
      ∀ l ∈ (envOf s).active, checkTarget (envOf s) ((envOf s).group.readV 5 l) = none) ∧
    (Issues sScalar (envOf sScalar) ∧ (envOf sScalar).isGroup = false ∧
      checkTarget (envOf sScalar) ((envOf sScalar).gang.pc + 4) = none) :=
  ⟨⟨vec_of (by decide +kernel), free_of (by decide +kernel), by decide +kernel⟩, issues_of (by decide +kernel), by decide +kernel,
    by decide +kernel⟩

theorem witness_calls :
    (let s := groupState 0 team1 (group1 { } [] 0x00F3)
     let e := envOf s
     Issues s e ∧ e.isGroup = true ∧ pcWord e.gang.pc ≠ 1023 ∧ checkTarget e (e.gang.pc + 4) = none ∧
      ∀ q ∈ (e.gangLanes.map (· / 4)).eraseDups, (e.group.stack q).length < 8) ∧
    (let s := groupState 0 team1 { group1 {} [] 0x3 with ret := [(0, [{ pc := 0x1000, lanes := 1 }, { pc := 0x1FFC, lanes := 3 }])] }
     let e := envOf s
     Issues s e ∧ e.isGroup = true ∧ e.active = [0, 1] ∧
      ∀ l ∈ e.active, ∃ x ∈ e.group.stack (l / 4), (e.group.stack (l / 4)).find? (fun r => r.lanes.getLsbD l) = some x ∧
        checkTarget e x.pc = none) :=
  ⟨⟨issues_of (by decide +kernel), by decide +kernel, by decide +kernel, by decide +kernel, by decide +kernel⟩,
    issues_of (by decide +kernel), by decide +kernel, by decide +kernel, by decide +kernel⟩

/-- Slot 0 waits for lanes 0 to 7, slot 7 is unset; the gang holds lanes 0 to 3 of eight that are there. -/
theorem witness_joins :
    let s := groupState 0 team1 { group1 {} [] 0xF with present := 0xFF, finished := 0, joins := [(0, some { pc := 0x1100, mask := 0xFF })] }
    let e := envOf s
    let k : JoinSlot := { pc := 0x1100, mask := 0xFF }
    let inner : JoinSlot := { pc := 0x1200, mask := 0x3 }
    let last := groupState 0 team1 { group1 {} [] 0xF with
      present := 0xFF, joins := [(0, some { k with parked := 0xF0 }), (3, some inner)] }
    Issues s e ∧ e.isGroup = true ∧ e.team.w16 = false ∧ e.gang.lanes ≠ 0 ∧
      e.group.gangs.all (fun y => decide (y.id < e.group.nextGang) && (y.id != e.gang.id || y == e.gang)) = true ∧
      pcSlot (e.gang.pc + ((8191 : BitVec 14).signExtend 32 <<< 2)) ≠ pcSlot e.gang.pc ∧
      k.mask &&& ~~~e.group.finished &&& ~~~e.gang.lanes ≠ 0 ∧ (k.mask &&& ~~~(k.parked ||| e.gang.lanes) &&& ~~~e.group.finished) ≠ 0 ∧
      Issues last (envOf last) ∧ (envOf last).group.slot 0 0 = some { k with parked := 0xF0 } ∧
      (k.mask &&& ~~~(0xF0#64 ||| (envOf last).gang.lanes) &&& ~~~(envOf last).group.finished) = 0 ∧
      maskOf (envOf last).active = (envOf last).gang.lanes ∧ (envOf last).group.slot 0 3 = some inner ∧
      inner.mask &&& maskOf (envOf last).active ≠ 0 ∧ e.gang.lanes &&& ~~~inner.mask ≠ 0 ∧
      pcSlot (e.gang.pc + ((7 : BitVec 14).signExtend 32 <<< 2)) = pcSlot e.gang.pc ∧ e.group.slot 0 7 = none ∧
      e.group.slot 0 0 = some k ∧ e.gang.lanes &&& ~~~k.mask = 0 ∧ e.gang.lanes &&& e.group.finished = 0 ∧
      maskOf e.active &&& ~~~k.mask = 0 ∧ maskOf e.active ≠ 0 :=
  ⟨issues_of (by decide +kernel), by decide +kernel, by decide +kernel, by decide +kernel, by decide +kernel, by decide +kernel,
    by decide +kernel, by decide +kernel, issues_of (by decide +kernel), by decide +kernel⟩

theorem witness_system_words :
    (let e := envOf sGroup
    let mr := fun (lo n : Nat) (v : Word) => (e.ctx.mr &&& ~~~(BitVec.ofNat 32 ((2 ^ n - 1) * 2 ^ lo))) ||| (v <<< lo)
    Issues sGroup e ∧ (mr 0 4 14).extractLsb' 0 4 ≠ 15 ∧ ((mr 4 3 4).extractLsb' 4 3).toNat ≤ 4 ∧
      (mr 0 4 15).extractLsb' 0 4 = 15 ∧ 5 ≤ ((mr 4 3 5).extractLsb' 4 3).toNat ∧ (mr 4 3 5).toNat < 2 ^ 14 ∧
      (mr 10 4 15).toNat < 2 ^ 14 ∧ ((14 : Word) <<< 0).toNat < 2 ^ 14 ∧ e.isGroup = true ∧ e.team.prov = false ∧
      e.team.idem = false) ∧
    (let s := groupState 0 { team1 with idem := true } (group1 {} [])
    Issues s (envOf s) ∧ (envOf s).team.prov = false ∧ (envOf s).team.idem = true ∧ (envOf s).team.stall = false) :=
  ⟨⟨issues_of (by decide +kernel), by decide +kernel⟩, ⟨issues_of (by decide +kernel), by decide +kernel⟩⟩

theorem witness_trap_words :
    Issues sGroup (envOf sGroup) ∧ (envOf sGroup).isGroup = true ∧ (envOf sGroup).active ≠ [] ∧
      absentCause (envOf sGroup) (fM 0xF8000000).toNat 0x1F = none ∧ absentCause (envOf sGroup) (fM 0x6B000000).toNat 0x1F = none ∧
      Issues sMaskedAll (envOf sMaskedAll) ∧ (envOf sMaskedAll).active = [] ∧ (envOf sScalar).isGroup = false ∧
      (envOf sScalar).ctxGuard = true :=
  ⟨issues_of (by decide +kernel), by decide +kernel, by decide +kernel, by decide +kernel, by decide +kernel, issues_of (by decide +kernel),
    by decide +kernel, by decide +kernel, by decide +kernel⟩

theorem witness_handler_return :
    let s := groupState 0 team1 { group1 { s := [(58, 0x1010), (59, 0x484)] } [] 0xF with handler := some 0xF }
      { frames := [(0, { handling := true, hidden := [1, 2, 3, 4, 5, 6, 7, 8] })] }
    let e := envOf s
    Issues s e ∧ e.isGroup = true ∧ e.active.isEmpty = false ∧
      (e.group.handler.getD 0) &&& e.group.live &&& ~~~e.gang.lanes = 0 ∧ mrCause (e.ctx.readS 59).toNat = none ∧
      Free e ((span 56 8).map (fun k => dstS k)) :=
  ⟨issues_of (by decide +kernel), by decide +kernel, by decide +kernel, by decide +kernel, by decide +kernel, free_of (by decide +kernel)⟩

/-- One group of two arrives, both have arrived, the group waits with its phase over or not, and a gang of part of the group. -/
theorem witness_barriers :
    (let e := envOf sGroup
    Issues sGroup e ∧ e.isGroup = true ∧ e.team.pair = false ∧ e.group.live &&& ~~~e.gang.lanes = 0 ∧
      tget e.group.arrived none 7 ≠ some (tget e.team.phase 0 7) ∧ e.gang.progress.started = false ∧
      tget e.group.arrived none 7 = none) ∧
    (let s := groupState 0 { team1 with phase := [(0, 3)] } { group1 {} [] with arrived := [(0, some 2), (1, some 0)] }
    let e := envOf s
    Issues s e ∧ tget e.group.arrived none 0 = some 2 ∧ 2 < tget e.team.phase 0 0 ∧ tget e.group.arrived none 1 = some 0 ∧
      tget e.team.phase 0 1 ≤ 0) ∧
    (let s := groupState 0 team1 (group1 {} [] 0x7FFF)
    let e := envOf s
    Issues s e ∧ e.isGroup = true ∧ e.team.pair = false ∧ ¬ (e.group.live &&& ~~~e.gang.lanes = 0) ∧
      e.gang.progress.started = false) :=
  ⟨⟨issues_of (by decide +kernel), by decide +kernel⟩, ⟨issues_of (by decide +kernel), by decide +kernel⟩,
    ⟨issues_of (by decide +kernel), by decide +kernel⟩⟩

/-- A release at DEVICE of a provisional team, one at SYSTEM with a store of the party on its way and without, and an acquire. -/
theorem witness_fence :
    (let s := groupState 0 { team1 with prov := true } (group1 {} [])
     Issues s (envOf s) ∧ (2 : BitVec 6).getLsbD 1 = true ∧ 2 ≤ (3 : BitVec 6).toNat ∧ (envOf s).team.prov = true) ∧
    (let s := { sGroup with outStores := [{ core := 0, team := 0, f := 1, host := true }] }
     let e := envOf s
     Issues s e ∧ e.team.prov = false ∧ 4 ≤ (5 : BitVec 6).toNat ∧
      (releaseLines e 5 (endRestart e s)).outStores.any (fun o => o.core == e.core && o.team == e.party) = true) ∧
    (let e := envOf sGroup
     Issues sGroup e ∧ e.team.prov = false ∧ e.team.remoteFail = false ∧
      (releaseLines e 4 (endRestart e sGroup)).outStores.any (fun o => o.core == e.core && o.team == e.party) = false ∧
      (1 : BitVec 6).getLsbD 1 = false) :=
  ⟨⟨issues_of (by decide +kernel), by decide, by decide, by decide +kernel⟩,
    ⟨issues_of (by decide +kernel), by decide +kernel, by decide, by decide +kernel⟩,
    issues_of (by decide +kernel), by decide +kernel, by decide +kernel, by decide +kernel, by decide⟩

/-! ## Premises met: memory -/

/-- A group with a scratchpad window 1 on the last bytes of its extent and window 2 on its start, of type Z4. -/
def sMem : State := groupState 0 team1 (group1 { mr := mrOf 11, win := [(1, { kind := .spad, frame := 0xFFC }), (2, { kind := .spad })] }
  (lanesTable 16 [(1, List.replicate 16 0x202)])) { spad := [(0x200, 0xA4)] }

theorem witness_loads :
    let e := envOf sMem
    (VecIssuer sMem e (span 2 1 ++ addendReg 63) ∧ Free e (addendOpnd srcV 63 ++ (span 2 1).map dstV) ∧ (e.ctx.window 1).kind ∈ kindsV ∧
      L1Clean sMem e.core ∧
      ∃ vals u, tryEach (fun l s => loadAccess e (e.ctx.window 1) (addendV e 63 l) 0 4 (some l) s) e.active sMem = (.ok vals, u)) ∧
    (VecIssuer sMem e ([8] ++ addendReg 1) ∧ zType (mrType e.ctx.mr) = true ∧ Free e (addendOpnd srcV 1 ++ [dstV 8]) ∧
      (e.ctx.window 2).kind ∈ kindsGroup ∧
      ∃ vals u, tryEach (loadRecord e (e.ctx.window 2) ⟨7, 8, 1, 2, 0⟩ (mrType e.ctx.mr)) (laneBlocks e) sMem = (.ok vals, u)) ∧
    (Issues sMem e ∧ e.profileL = false ∧ Free e (addendOpnd srcS 63 ++ (span 4 4).map dstS) ∧ (e.ctx.window 2).kind ∈ kindsS ∧
      ∃ ws u, loadAccess e (e.ctx.window 2) (addendS e 63) 0 6 none sMem = (.ok ws, u)) :=
  ⟨⟨vec_of (by decide +kernel), free_of (by decide +kernel), by decide +kernel, clean_of (by decide +kernel), ok_of (by decide +kernel)⟩,
    ⟨vec_of (by decide +kernel), by decide +kernel, free_of (by decide +kernel), by decide +kernel, ok_of (by decide +kernel)⟩,
    issues_of (by decide +kernel), by decide +kernel, free_of (by decide +kernel), by decide +kernel, ok_of (by decide +kernel)⟩

theorem witness_stores :
    let e := envOf sMem
    (VecIssuer sMem e (span 2 1 ++ addendReg 63) ∧ Free e (addendOpnd srcV 63 ++ (span 2 1).map (fun x => srcV x)) ∧
      (e.ctx.window 1).kind ∈ kindsV ∧
      let x := tryEach (fun l s => storeAccess e (e.ctx.window 1) (addendV e 63 l) 0 4 (some l)
        (storeBytes 4 ((span 2 1).map (fun x => e.group.readV x l))) s) e.active sMem
      succeeds x = true ∧ storeStalls e (e.ctx.window 1) (okVal [] x.1) x.2 = false) ∧
    (VecIssuer sMem e ([8] ++ addendReg 1) ∧ zType (mrType e.ctx.mr) = true ∧ Free e (addendOpnd srcV 1 ++ [srcV 8]) ∧
      (e.ctx.window 2).kind ∈ kindsGroup ∧
      let x := tryEach (storeRecord e (e.ctx.window 2) ⟨7, 8, 1, 2, 0⟩ (mrType e.ctx.mr)) (laneBlocks e) sMem
      succeeds x = true ∧ storeStalls e (e.ctx.window 2) (okVal [] x.1) x.2 = false) ∧
    (Issues sMem e ∧ Free e [srcS 6 false] ∧ MemoryOk sMem ∧
      e.isAgent = false ∧ e.profileL = false ∧ e.team.pair = false ∧ e.team.prov = false ∧
      (e.ctx.window 1).kind = .spad ∧ 0xFFC + 4 ≤ e.team.scratch ∧ e.team.spad + e.team.scratch ≤ 0x1000000 ∧
      (sMem.core e.lower).locks = [] ∧ (e.ctx.window 1).kind ∈ kindsS ∧
      succeeds (storeAccess e (e.ctx.window 1) (addendS e 63) 0 4 none (storeBytes 4 ((span 6 1).map e.ctx.readS)) sMem) = true) :=
  ⟨⟨vec_of (by decide +kernel), free_of (by decide +kernel), by decide +kernel, by decide +kernel, by decide +kernel⟩,
    ⟨vec_of (by decide +kernel), by decide +kernel, free_of (by decide +kernel), by decide +kernel, by decide +kernel, by decide +kernel⟩,
    issues_of (by decide +kernel), free_of (by decide +kernel), memoryOk_of (by decide +kernel), by decide +kernel⟩

theorem witness_result_write :
    let x : Result := { seq := 9, scalar := true, regs := [63], writes := [(63, 5)] }
    let s := agentState { results := [x], sEmpty := [63] }
    (s.ctx (.agent 0)).results.find? (fun y => y.seq == 9) = some x ∧ x.scalar = true ∧
      ({ x with scalar := false } : Result).scalar = false := by decide +kernel

/-- Granule 8 of the scratchpad is full in one state and empty in the other. -/
theorem witness_full_empty_loads :
    let e := envOf sMem
    let x := fun (s : State) => tryEach (ldfeLocate e (e.ctx.window 2) ⟨0, 2, 63, 2, 8⟩ 4) e.active s
    let gs := granulesOf ((okVal [] (x sMem).1).flatten.map (·.h))
    VecIssuer sMem e (span 2 1 ++ addendReg 63) ∧ Free e (addendOpnd srcV 63 ++ (span 2 1).map dstV) ∧
      (e.ctx.window 2).kind ∈ kindsLdfe ∧ succeeds (x sMem) = true ∧ gs ≠ [] ∧ gs.all (granuleFull (x sMem).2) = false ∧
      succeeds (x (fillGranules gs sMem)) = true ∧ gs.all (granuleFull (x (fillGranules gs sMem)).2) = true :=
  ⟨vec_of (by decide +kernel), free_of (by decide +kernel), by decide +kernel⟩

theorem witness_atomics :
    let e := envOf sMem
    let r : AtomArgs := ⟨2, 63, 2, 1, 0⟩
    let q : AtomArgs := ⟨2, 63, 1, 5, 2⟩
    (atomScalarData r = false ∧ VecIssuer sMem e (atomOperand 9 r ++ addendReg 63) ∧
      Free e (addendOpnd srcV 63 ++ (atomOperand 9 r).map (fun x => srcV x)) ∧ (e.ctx.window 2).kind ∈ kindsV ∧ e.team.prov = false ∧
      ∃ xs u, tryEach (fun l s => atomLocate 9 r e (e.ctx.window 2) (addendV e 63 l) l
        ((atomOperand 9 r).map (fun x => e.group.readV x l)) s) e.active sMem = (.ok xs, u)) ∧
    (atomScalarData q = true ∧ Issues sMem e ∧ e.profileL = false ∧
      Free e (addendOpnd srcS 63 ++ (atomOperand aStrl q).map (fun x => srcS x)) ∧ (e.ctx.window 1).kind ∈ kindsS ∧
      let x := atomLocate aStrl q e (e.ctx.window 1) (addendS e 63) scalarLane ((atomOperand aStrl q).map e.ctx.readS) sMem
      succeeds x = true ∧ releaseWaits e 5 (releaseLines e 5 x.2) = false ∧ e.team.remoteFail = false) ∧
    { team1 with prov := true }.prov = true :=
  ⟨⟨by decide +kernel, vec_of (by decide +kernel), free_of (by decide +kernel), by decide +kernel, by decide +kernel,
      ok_of (by decide +kernel)⟩,
    ⟨by decide +kernel, issues_of (by decide +kernel), by decide +kernel, free_of (by decide +kernel), by decide +kernel, by decide +kernel,
      by decide +kernel, by decide +kernel⟩, rfl⟩

theorem witness_atomic_word :
    let e := envOf sMem
    Issues sMem e ∧ MemoryOk sMem ∧ e.isAgent = false ∧ e.profileL = false ∧ e.team.pair = false ∧ e.team.prov = false ∧
      Free e [srcS 2 false] ∧ (e.ctx.window 1).kind = .spad ∧ (e.ctx.window 1).frame + 4 ≤ e.team.scratch ∧
      (e.ctx.window 1).frame % 4 = 0 ∧ e.team.spad + e.team.scratch ≤ 0x1000000 ∧ (sMem.core e.lower).locks = [] :=
  ⟨issues_of (by decide +kernel),
    memoryOk_of (by decide +kernel),
    by decide +kernel, by decide +kernel, by decide +kernel, by decide +kernel, free_of (by decide +kernel), by decide +kernel,
    by decide +kernel, by decide +kernel, by decide +kernel, by decide +kernel⟩

/-- A word at the end of the scratchpad through window 1: loads of it, atomics of all its lanes, and SC where lane 1 of the gang, or the
whole gang, or no lane holds its reservation. -/
theorem witness_scratchpad_word :
    let e := envOf sMem
    let w := e.ctx.window 1
    let line : Option Reservation := some { line := hSpad 0 0xFFC / 64 }
    let held := fun (ls : List Nat) => (envOf { sMem with groups := [(0, { sMem.group 0 0 0 with reserv := ls.map (fun l => (l, line)) })] }).group
    let lanes := fun (ls : List Nat) => e.active.find? (fun l => tget (held ls).reserv none l == line)
    MemoryOk sMem ∧ L1Clean sMem e.core ∧ VecIssuer sMem e [2, 3] ∧ Free e [srcV 2, srcV 3] ∧
      (e.isAgent = false ∧ e.team.pair = false ∧ e.team.prov = false ∧ w.kind = .spad ∧ w.frame + 4 ≤ e.team.scratch ∧ w.frame % 4 = 0 ∧
        e.team.spad + e.team.scratch ≤ 0x1000000 ∧ (sMem.core e.lower).locks = [] ∧ e.lower < 640 ∧ e.slot < 16 ∧ e.gi < 128 ∧
        e.active.all (fun l => addendV e 63 l == 0) = true ∧ addendS e 63 = 0 ∧ (e.team.spad + w.frame) = 0xFFC ∧
        lanes [1] = some 1 ∧ lanes [] = none ∧ e.gangLanes ≠ [] ∧
        (e.gangLanes.all (fun l => tget (held (List.range 16)).reserv none l == line)) = true) :=
  ⟨memoryOk_of (by decide +kernel), clean_of (by decide +kernel), vec_of (by decide +kernel), free_of (by decide +kernel), by decide +kernel⟩

/-- The pair s4:s5 holds the largest address of each kind that WIN takes. -/
theorem witness_win :
    (Issues sAgent (envOf sAgent) ∧ Free (envOf sAgent) [srcS 4, srcS 5] ∧ (envOf sAgent).isAgent = true ∧
      (envOf sAgent).profileL = false) ∧
    (let s := groupState 0 team1 (group1 { s := [(4, 0xFFF), (6, 0xFFFF), (9, 0x7FFFFFFF)] } [])
    let e := envOf s
    Issues s e ∧ Free e [srcS 4, srcS 5] ∧ e.isAgent = false ∧ e.profileL = false ∧ (e.ctx.readS 5).toNat = 0 ∧
      (e.ctx.readS 4).toNat < e.team.extent ∧ (e.ctx.readS 7).toNat = 0 ∧ (e.ctx.readS 6).toNat < 0x10000 ∧
      isStack e.core = false ∧ (e.ctx.readS 9).toNat ≤ 0x7FFFFFFF) :=
  ⟨⟨issues_of (by decide +kernel), free_of (by decide +kernel), by decide +kernel⟩, ⟨issues_of (by decide +kernel),
    free_of (by decide +kernel), by decide +kernel⟩⟩

/-! ## Premises met: engines, accumulators, widths and bank units -/

/-- Bytes of 32-bit words from an address up, as a memory lists them. -/
def wordsAt (a : Nat) (ws : List Nat) : List Host.Cell :=
  ((span a (4 * ws.length)).zip (ws.flatMap (leBytes 4))).filter (fun c => c.2 != 0)

/-- Device address 0 of shared memory, which function 1 owns one way of; its agents serve octet 0. -/
def shared (a : Nat) : Nat := hMake 1 0 a
def func1 : Func := { enabled := true, csr := [(0x040, 1), (0x100, 1), (0x10A, 0x10001)] }

/-- A 64 KiB page of function 1 at 0x10000, of its shared memory, that may be read and written. -/
def page1 : TlbEntry := { f := 1, va := 0x10000, size := 0x10000, entry := 0x4F }

def sCode : State :=
  { groupState 0 { team1 with slots := [(1, { st := .landed }), (2, { st := .landing, phys := 7 })] }
      (group1 { s := [(8, 0x1F000)] } []) { tlb := [page1], ops := [(4, some { kind := .code, lower := 0, slot := 0, group := 0, f := 1, lslot := 2, va := 0x1F000 })] } with
    funcs := [(1, func1)] }

/-- The last segment of a page, which a slot not yet bound may take; an operation that copies it into slot 2. -/
theorem witness_code_fetch :
    let e := envOf sCode
    Issues sCode e ∧ Free e [srcS 8, srcS 9] ∧ e.isAgent = false ∧ e.profileL = false ∧ e.gang.progress.started = false ∧
      (e.ctx.readS 8).toNat + (e.ctx.readS 9).toNat % 2 ^ 24 * 2 ^ 32 = 0x1F000 ∧ teamHolds sCode e 63 = false ∧
      succeeds (translate e.core e.team.f 0x1F000 .code sCode) = true ∧ (lslot e.team 63).st = .unbound ∧
      (teamCores e.lower e.team).all (fun c => !imemFull (translate e.core e.team.f 0x1F000 .code sCode).2 c) = true ∧
      (lslot e.team 1).st = .landed ∧ (lslot e.team 2).st = .landing :=
  ⟨issues_of (by decide +kernel), free_of (by decide +kernel), by decide +kernel⟩

theorem witness_code_landing :
    let o := ((codeOp sCode 0 2).map (·.2)).getD { kind := .copy, lower := 9, slot := 0, group := 0, f := 0 }
    let x := codeHome 0 o sCode
    let y := codeBytes 0 o (okVal 0 x.1) x.2
    codeOp sCode 0 2 = some (4, o) ∧ o.slot = 0 ∧ succeeds x = true ∧ succeeds y = true ∧ (y.2.team 0 0).pair = false := by
  decide +kernel

/-- A slot that failed, a wait under way, and slot 0, which is not bound. -/
theorem witness_code_other :
    let s := groupState 0 { team1 with slots := [(1, { st := .landed }), (3, { st := .failed, cause := cPageAbsent, source := 0x3000 })] }
      { group1 {} [] with gangs := [{ id := 3, pc := 0x1008, lanes := 0xFFFF, progress := { started := true } }] }
    (envOf s).gang.progress.started = true ∧ (lslot (envOf s).team 3).st = .failed ∧ (lslot (envOf s).team 0).st = .unbound := by
  decide +kernel

/-- A copy of one row of 64 bytes from window 1 to window 2 of the scratchpad, offsets 0 and 0xFC0; s24 on names an empty one. -/
def copyCtx : Ctx :=
  { s := [(16, 0x21), (18, 0xFC0), (19, 64), (24, 0x21)], win := [(1, { kind := .spad }), (2, { kind := .spad }), (3, { kind := .global, frame := 0x10000 })] }
def sCopy : State := groupState 0 team1 (group1 copyCtx [])

theorem witness_copy :
    let e := envOf sCopy
    let d := (span 16 8).map e.ctx.readS
    let n := (span 24 8).map e.ctx.readS
    let src := e.ctx.window (cpSrcw d)
    let dst := e.ctx.window (cpDstw d)
    let x := (mkSide sCopy e d src false).getD { win := {}, lower := 9, slot := 9, off := 0, len := 0 }
    let y := (mkSide sCopy e d dst true).getD { win := {}, lower := 9, slot := 9, off := 0, len := 0 }
    let locks := sideLocks sCopy e x false sCopy.seq ++ sideLocks sCopy e y true sCopy.seq
    WholeGroup sCopy e ∧ Free e ((span 16 8).map (fun x => srcS x true)) ∧ Free e ((span 24 8).map (fun x => srcS x true)) ∧
      e.profileL = false ∧ e.isProducer = true ∧ cpReserved d = false ∧ copyKinds src.kind dst.kind = true ∧
      (cpPitch d = 0 ∨ cpX0 d ≤ cpPitch d) ∧ cpEmpty d = false ∧ mkSide sCopy e d src false = some x ∧
      mkSide sCopy e d dst true = some y ∧ x.bad sCopy = false ∧ y.bad sCopy = false ∧
      (x.spad && y.spad && x.lower == y.lower && x.slot == y.slot && x.off < y.off + y.len && y.off < x.off + x.len) = false ∧
      cpMisaligned d src dst = false ∧ dst.kind ≠ .global ∧ locksFit sCopy locks = true ∧ tget e.group.tokens 0 7 < 255 ∧
      locks.any (lockRefused sCopy) = false ∧ cpReserved n = false ∧ cpEmpty n = true :=
  ⟨whole_of (by decide +kernel), free_of (by decide +kernel), free_of (by decide +kernel), by decide +kernel⟩

/-- The copy under way, whose row can land, and a prefetch of one line of page 1. -/
def copyOp : EngOp :=
  { kind := .copy, lower := 0, slot := 0, group := 0, f := 1, token := 7, desc := [0x21, 0, 0xFC0, 64, 0, 0, 0, 0],
    src := { kind := .spad }, dst := { kind := .spad } }
def prefOp : EngOp := { kind := .pref, lower := 0, slot := 0, group := 0, f := 1, token := 2, va := 0x1FFFF, len := 1 }
def sOps : State :=
  { groupState 0 team1 { group1 copyCtx [] with tokens := [(2, 1), (7, 1)] } { tlb := [page1], ops := [(4, some copyOp), (5, some prefOp)] } with
    funcs := [(1, func1)] }

theorem witness_copy_steps :
    opOf sOps 0 4 = some copyOp ∧ (landRow 0 (rowWords copyOp.desc) copyOp sOps).2.1 = none ∧
    (let x := landRow 0 (rowWords copyOp.desc) copyOp sOps
     x.1.pos = boxWords copyOp.desc ∧ doneGranules sOps copyOp = [] ∧ (doneGranules x.2.2 x.1).length = 4 ∧
       (sideGranules sOps (opSide copyOp true)).length = 4) ∧
    opOf sOps 0 5 = some prefOp ∧ (prefRun 0 (prefLines prefOp - prefOp.pos) prefOp sOps).2.1 = none ∧
    (let p := (prefRun 0 (prefLines prefOp - prefOp.pos) prefOp sOps).1
     p.lower = prefOp.lower ∧ p.slot = prefOp.slot ∧ p.group = prefOp.group ∧ p.token = prefOp.token) := by decide +kernel

theorem witness_copy_row :
    let written := (span 0 (rowWords copyOp.desc)).flatMap (opSpadWord sOps copyOp true)
    MemoryOk sOps ∧ ((opSide copyOp false).spad = true ∧ (opSide copyOp true).spad = true ∧ rowWords copyOp.desc = 16 ∧ copyOp.pos = 0) ∧
      written = span (hSpad 0 0xFC0) 64 ∧ (span 0 (rowWords copyOp.desc)).flatMap (opSpadWord sOps copyOp false) = span (hSpad 0 0) 64 ∧
      written.Nodup :=
  ⟨memoryOk_of (by decide +kernel), by decide +kernel, by decide +kernel, by decide +kernel, by decide +kernel⟩

theorem witness_prefetch :
    let s := { sOps with groups := [(0, { group1 { copyCtx with s := [(6, 0x7FFFFFFF)] } [] with
      tokens := [(2, 1), (7, 254)], tokenCauses := [(4, cPageAbsent), (5, cProtection)] })] }
    let e := envOf s
    WholeGroup s e ∧ Free e [srcS 6 false, srcS 7 false] ∧ e.profileL = false ∧ e.isProducer = true ∧
      (e.ctx.window 3).kind = .global ∧ ((e.ctx.readS 6).extractLsb' 0 31).toNat ≠ 0 ∧
      ((e.ctx.readS 7).extractLsb' 0 31).toNat = 0 ∧ tget e.group.tokens 0 7 < 255 ∧
      [0, 1].all (fun k => tget e.group.tokens 0 k == 0 && tget e.group.tokenCauses 0 k == 0) = true ∧
      tget e.group.tokens 0 2 ≠ 0 ∧ [4, 5].all (fun k => tget e.group.tokens 0 k == 0) = true ∧
      [4, 5].find? (fun j => tget e.group.tokenCauses 0 j != 0) = some 4 :=
  ⟨whole_of (by decide +kernel), free_of (by decide +kernel), by decide +kernel⟩

/-- Team 0 holds banks 254 and 255, its group's own; s4 counts 127 bands of 2, which fit below them, and s6 one more. -/
def accState : State :=
  groupState 0 team1 (group1 { s := [(4, 127), (5, 2), (6, 128), (7, 254), (8, 15), (9, 0)] } [])
    { accBanks := [(254, some { team := 0, first := 254, len := 2, holder := 0, band := 0 }),
        (255, some { team := 0, first := 254, len := 2, holder := 0, band := 0 })] }

theorem witness_accumulators :
    let s := accState
    let e := envOf s
    let val := fun (z : Nat) => (e.ctx.readS z).toNat
    WholeGroup s e ∧ Free e [srcS 4 true, srcS 5 false, dstS 1] ∧ Free e [srcS 7 false] ∧
      Free e [srcS 7 false, srcS 8 true, dstV 63] ∧ Free e [srcS 7 false, srcS 5 false] ∧ Free e [srcS 9 false, dstS 2] ∧
      e.profileL = false ∧ isStack e.core = false ∧ e.team.header.getLsbD 9 = true ∧ 0 < val 4 * val 5 ∧ val 6 * val 5 ≤ 256 ∧
      freeRun s e.core (val 4 * val 5) = some 0 ∧ freeRun s e.core (val 6 * val 5) = none ∧ val 7 < 256 ∧
      (accBank s e.core (val 7)).any (fun z => z.team == teamKey e.lower e.slot && z.first == val 7 && z.holder == e.gi) = true ∧
      earlierOn s e.core s.seq (span (val 7) 2) = false ∧ 63 < e.team.regs ∧ val 8 < 16 ∧
      ownsBanks s e.core (teamKey e.lower e.slot) [val 7] = true ∧ bandTaken s e.core e.gi [val 7] = false ∧
      e.ctx.pending false 63 = false ∧ val 5 ≠ 0 ∧ val 7 + val 5 ≤ 256 ∧
      ownsBanks s e.core (teamKey e.lower e.slot) (span (val 7) (val 5)) = true ∧
      bandTaken s e.core e.gi (span (val 7) (val 5)) = false ∧ val 9 = 0 :=
  ⟨whole_of (by decide +kernel), free_of (by decide +kernel), free_of (by decide +kernel), free_of (by decide +kernel),
    free_of (by decide +kernel), free_of (by decide +kernel), by decide +kernel⟩

/-- An ADRAIN of both banks; banks of no allocation; bank 3, held by group 1 and owned by it; banks 254 and 255 under a drain. -/
def accBusy : State :=
  { groupState 0 team1 (group1 { s := [(4, 3), (5, 1), (6, 0x10F), (7, 254), (8, 0), (9, 2)] } [])
      { accBanks := [(3, some { team := 0, first := 3, len := 1, holder := 1, band := 1, owner := some 1 }),
          (254, some { team := 0, first := 254, len := 2, holder := 0, band := 0 }),
          (255, some { team := 0, first := 254, len := 2, holder := 0, band := 0 })],
        drains := [{ seq := 0, lower := 0, slot := 0, group := 0, reg := 9, bank := 254, wide := true, row := 0, lanes := [0] }] } with
    seq := 1 }

theorem witness_accumulators_other :
    let s := accBusy
    let e := envOf s
    let val := fun (z : Nat) => (e.ctx.readS z).toNat
    let key := teamKey e.lower e.slot
    WholeGroup s e ∧ Free e [srcS 7 false, srcS 6 true, dstV 62] ∧ Free e [srcS 4 false, srcS 5 false, dstV 63] ∧ Free e [srcS 8 false] ∧
      (bit (val 6) 8 = true ∧ bits (val 6) 31 9 = 0 ∧ bits (val 6) 7 4 = 0 ∧ val 7 % 2 = 0 ∧ 63 < e.team.regs ∧
        ownsBanks s e.core key [val 7, val 7 + 1] = true ∧ bandTaken s e.core e.gi [val 7, val 7 + 1] = false ∧
        e.ctx.pending false 62 = false ∧ e.ctx.pending false 63 = false) ∧
      (bit (val 5) 8 = false ∧ ownsBanks s e.core key [val 8] = false ∧ ownsBanks s e.core key [val 4] = true ∧
        bandTaken s e.core e.gi [val 4] = true) ∧
      (val 8 < 256 ∧ accBank s e.core (val 8) = none ∧
        (accBank s e.core (val 4)).any (fun z => z.team == key && z.first == val 4 && z.holder != e.gi) = true ∧
        earlierOn s e.core s.seq (span (val 7) 2) = true) ∧
      val 9 ≠ 0 ∧ val 7 + val 9 ≤ 256 ∧ ownsBanks s e.core key (span (val 7) (val 9)) = true ∧
      bandTaken s e.core e.gi (span (val 7) (val 9)) = false ∧ ownsBanks s e.core key (span (val 8) (val 9)) = false :=
  ⟨whole_of (by decide +kernel), free_of (by decide +kernel), free_of (by decide +kernel), free_of (by decide +kernel), by decide +kernel⟩

/-- A width of 64 for 16 threads; none while an older team waits for the same core; a team that waits. -/
theorem witness_set_width :
    let r : SetwArgs := ⟨3, false, false, 0⟩
    let asked := fun (s : State) => putTeam (envOf s) (fun t => { t with setwReq := setwPack r, setwWait := some (t.setwWait.getD s.time) }) s
    let late := { sScalar with time := 9, teams := sScalar.teams ++ [(1, { team1 with setwWait := some 4 })] }
    Issues sScalar (envOf sScalar) ∧ Issues sGroup (envOf sGroup) ∧
      (envOf sScalar).profileL = false ∧ (envOf sScalar).isScalar = true ∧
      (isStack (envOf sScalar).core && r.x && 2 ≤ r.r.toNat) = false ∧ (envOf sScalar).ctx.results = [] ∧
      setwGrant (asked sScalar) 0 0 = some 64 ∧ (envOf sScalar).team.pair = false ∧ (envOf late).isScalar = true ∧ setwGrant (asked late) 0 0 = none ∧
      (envOf sGroup).isGroup = true ∧
      ((asked sScalar).team 0 0).setwWait.isSome = true ∧ ((asked sScalar).team 0 0).stopped = false ∧
      ((asked sScalar).team 0 0).killed = false ∧ ((asked sScalar).team 0 0).saving = false :=
  ⟨issues_of (by decide +kernel), issues_of (by decide +kernel), by decide +kernel⟩

/-- An I8 tile of one step in banks 254 and 255's team: operands at 0 and 0xF00, command id 0xFFFE. -/
def mloopDesc : List Word := [0, 0xF00, 0x00100010, 0x00100010, 0x000101FE, 1, 0x4D, 0]
def mloopCmd : MCmd := { seq := 0, id := 7, group := 0, core := 0, desc := mloopDesc, preds := [], mr := 0x80, q := 0 }
def matrixCtx : Ctx :=
  { s := ((span 40 8).zip mloopDesc) ++ [(54, 0xFFFE), (55, 0xFFFFFFFF), (56, 7), (57, 0xFFFF)] }
def sMatrix (cmds : List MCmd) : State :=
  groupState 0 { team1 with cmds := cmds } (group1 matrixCtx []) { accBanks := [(254, some { team := 0, first := 254, len := 1, holder := 0, band := 0 })] }

theorem witness_matrix_issue :
    let s := sMatrix []
    let e := envOf s
    let w := { group1 matrixCtx [] with matrixFail := cPageAbsent }
    WholeGroup s e ∧ e.profileL = false ∧ isStack e.core = false ∧
      Free e (srcS 54 :: (span 40 8).map (fun x => srcS x false) ++ [srcS 55 true]) ∧
      mloopCause s e (e.ctx.readS 54).toNat (e.ctx.readS 55).toNat ((span 40 8).map e.ctx.readS) = none ∧ (coreCmds s e.core).length < 32 ∧
      mloopCause s e 0xFFFF (e.ctx.readS 55).toNat ((span 40 8).map e.ctx.readS) = some cCmdId ∧
      32 ≤ (coreCmds (sMatrix ((List.range 32).map (fun i => { mloopCmd with id := i }))) 0).length ∧
      Free e [srcS 56 false] ∧ (e.ctx.readS 57).toNat < 2 ^ 16 ∧ (findCmd e.team 7).isSome = false ∧ e.group.matrixFail = 0 ∧
      (findCmd (envOf (sMatrix [mloopCmd])).team 7).isSome = true ∧ w.matrixFail ≠ 0 :=
  ⟨whole_of (by decide +kernel), by decide +kernel, by decide +kernel, free_of (by decide +kernel), by decide +kernel, by decide +kernel,
    by decide +kernel, by decide +kernel, free_of (by decide +kernel), by decide +kernel, by decide +kernel, by decide +kernel,
    by decide +kernel, by decide +kernel⟩

theorem witness_matrix_steps :
    let s := sMatrix [mloopCmd]
    let c := { mloopCmd with started := true }
    findCmd (s.team 0 0) 7 = some mloopCmd ∧ mayStart s 0 0 mloopCmd = true ∧ findCmd ((sMatrix [c]).team 0 0) 7 = some c ∧
      c.started = true ∧ c.fail = 0 ∧ c.steps < mcMt c.desc * mcNt c.desc * mcK c.desc ∧
      (nextStep (sMatrix [c]) 0 0 c).2.toOption.isSome = true ∧
      mcType c.desc = 13 ∧ mcModular c.desc = false ∧ c.ops.isNone = true := by decide +kernel

/-- A word of nothing but its control slot, which can be taken; a bank with two contexts that run. -/
def micro0 : Micro := ⟨0, 0, 0, 0, false, 0, 0, 0, 0, 0, 0, 0, 0, 0, 0, false, 0⟩
def sUnit (u : Machine.Unit) : State := { who := some (.unit 8192), power := .service, units := [(8192, u)], funcs := [(1, func1)] }

theorem witness_microwords :
    let s := sUnit { run := .running, pc := 254, lcInit := [(0, 3)], lc := [(0, 1)] }
    let u := { s.unit 8192 with cycles := (s.unit 8192).cycles + 1, stamp := s.time + 1 }
    let t := { s with banks := tput s.banks (physBank s 8192) 8193, time := s.time + 1 }
    let f := slotF 8192 micro0 u t
    let a := slotA 8192 micro0 (okVal {} f.1) f.2
    let w := slotW 8192 micro0 (okVal {} a.1) a.2
    let v := okVal {} w.1
    s.who = some (.unit 8192) ∧ succeeds f = true ∧ succeeds a = true ∧ succeeds w = true ∧ v.pc < 255 ∧ v.byClose = false ∧
      tget v.lcInit 0 0 ≠ 0 ∧ (tget v.lc 0 0 + 0xFFFF) % 0x10000 = 0 ∧ (tget v.lc 0 1 + 0xFFFF) % 0x10000 ≠ 0 ∧
      succeeds (completeAllParts 8192 v w.2) = true ∧ (s.unit 8192).mailFull = false ∧
      (let u := { u with byClose := true }
       let f := slotF 8192 micro0 u t
       let a := slotA 8192 micro0 (okVal {} f.1) f.2
       let w := slotW 8192 micro0 (okVal {} a.1) a.2
       succeeds f = true ∧ succeeds a = true ∧ succeeds w = true ∧ (okVal {} w.1).byClose = true) := by decide +kernel

theorem witness_microwords_waits :
    let s := sUnit { run := .running, pc := 0, mailFull := true, mailbox := List.replicate 32 1, stalled := some 0x40 }
    let r := sUnit { run := .running }
    (s.unit 8192).mailFull = true ∧ succeeds (slotF 8192 micro0 (takeMail micro0 (s.unit 8192)) s) = true ∧
      (s.unit 8192).stalled = some 0x40 ∧
      (((bankRunners r (physBank r 8192)).find? (fun k => tget r.banks 0 (physBank r 8192) < k + 1)).orElse
        (fun _ => (bankRunners r (physBank r 8192)).head?)) = some 8192 ∧ unitHeld r (physBank r 8192) = false ∧
      (let h := fun (u : Machine.Unit) => { sUnit u with banks := [(physBank r 8192, 8193)] }
       let pend := { r.unit 8192 with pendW := some (0, []) }
       unitHeld (h (r.unit 8192)) (physBank r 8192) = true ∧ unitHeld (h pend) (physBank r 8192) = true ∧
         ((h pend).unit (tget (h pend).banks 0 (physBank r 8192) - 1)).pendW.isSome = true) := by decide +kernel

/-- A stack core's group of function 1, which has four banks of one row block; bank 3 in s4; an image of one HALT word for index
255 at 0x10, a parameter block at 0x40. -/
def sBank (us : List (Nat × Machine.Unit)) : State :=
  { groupState 512 { team1 with record := 5, idx := 6 } (group1 { s := [(4, 3), (5, 0x10), (6, 0x40), (7, 0xFF), (10, 7)] } [])
      { spad := wordsAt 0x10 [0x00FF0001, 0, 0, 0x60000000] ++ wordsAt 0x40 [0, 0, 256] } with
    funcs := [(1, { func1 with csr := (0x109, 0x01000004) :: func1.csr })], units := us }

theorem witness_bank_load_run :
    let s := sBank []
    let e := envOf s
    let hd := spadOperand s e 0x10 8 8
    let bs := spadOperand s e 0x10 16 8
    let ps := spadOperand s e 0x40 64 64
    WholeGroup s e ∧ Free e [srcS 4 false, srcS 5 false] ∧ e.profileL = false ∧ isStack e.core = true ∧
      rangeReserved 3 = false ∧ rangeBad s e.team.f 3 = false ∧ e.team.prov = false ∧ hd.toOption.isSome = true ∧
      leWord (okVal [] hd) 0 2 = 1 ∧ leWord (okVal [] hd) 2 1 + 1 ≤ 256 ∧ bs.toOption.isSome = true ∧
      (imageWords (okVal [] bs)).isSome = true ∧ (unitsOf e (rangeBanks 3)).all (fun k => !(s.unit k).busy) = true ∧
      ps.toOption.isSome = true ∧ paramCause s e.team.f (okVal [] ps) = none ∧
      (unitsOf e (rangeBanks 3)).all (fun k => !runRefused e (s.unit k)) = true :=
  ⟨whole_of (by decide +kernel), free_of (by decide +kernel), by decide +kernel⟩

theorem witness_bank_wait :
    let s := sBank [(8195, { run := .running, flags := 0xFF })]
    let r := sBank [(8195, { run := .running })]
    let e := envOf s
    WholeGroup s e ∧ Free e [srcS 4 true, srcS 7 false, dstS 9] ∧ Free e [srcS 4 false, srcS 10 false, dstV 63] ∧
      Free e [srcS 4 false, srcV 63 true] ∧ rangeReserved 3 = false ∧ rangeBad s e.team.f 3 = false ∧
      (e.ctx.readS 7).toNat < 256 ∧ (unitsOf e (rangeBanks 3)).all (fun k => (s.unit k).released 0xFF) = true ∧
      (unitsOf e (rangeBanks 3)).any (fun k => !(r.unit k).released 0xFF) = true ∧ 63 < e.team.regs ∧
      (e.ctx.readS 4).toNat < 2 ^ 16 ∧ (e.ctx.readS 10).toNat < 8 ∧ e.team.prov = false ∧ e.gang.progress.phase = 0 ∧
      (unitsOf e (rangeBanks 3)).all (fun k => (s.unit k).busy && !(s.unit k).mailFull) = true :=
  ⟨whole_of (by decide +kernel), free_of (by decide +kernel), free_of (by decide +kernel), free_of (by decide +kernel),
    by decide +kernel⟩

/-! ## Premises met: launches, teams and agents

Function 1 has queue 0 at 0, its run board at 0x1000, its launch table at 0x3000, one node at 0x4000, its sites at 0x5000 and a pool of two
private blocks, all in shared memory; a launch of two teams at 0x8000 and its kernel's object at 0x10000, loaded for profile C. -/

def fnL : Func :=
  { func1 with loaded := [(shared 0x10040, 0, shared 0x10000)],
               csr := func1.csr ++ [(0x042, 0x8000000), (0x044, 2), (0x0D1, 0x10000), (0x0D2, 0x1000), (0x0D3, 0x10000), (0x0D4, 0x3000),
                 (0x0D5, 0x10000), (0x0D6, 0x4000), (0x0D7, 0x10000), (0x0D8, 1), (0x0D9, 0x5000), (0x0DA, 0x10000)] }

/-- Words at the offsets of a structure in shared memory. -/
def fields (a : Nat) (ws : List (Nat × Nat)) : List Host.Cell := ws.flatMap (fun w => wordsAt (shared (a + w.1)) [w.2])

/-- The object and descriptor of the kernel: one segment of two words, 64 registers, 0x100 bytes of scratchpad. -/
def kernelObj : List Host.Cell :=
  fields 0x10000 [(0, 0x4A424F57), (4, 0x10001), (8, 64), (0x14, 0x2000), (0x40, 0x314B4C57), (0x44, 0x10302), (0x48, 0x701), (0x4C, 0x100),
    (0x54, 8), (0x58, 0x80), (0x5C, 1), (0x60, 0x1000), (0x80, 0xFF)]

/-- A launch record: STATE, FLAGS, NTEAM, and words of further fields. -/
def launch (a state flags nteam : Nat) (more : List (Nat × Nat)) : List Host.Cell :=
  fields a ([(0, state), (4, flags), (8, 0x10040), (0xC, 0x10000), (0x10, nteam), (0x14, 16)] ++ more)

def agentL (regs : Tbl Word) (mem : List Host.Cell) (x : Core := {}) : State :=
  { agentState { s := regs } x with funcs := [(1, fnL)], mem := mem }

/-- The agent of core 0 with the record in s2 and s3, index 0x7FFFFFFF in s4 and 0x80000000 in s5. -/
def recordRegs : Tbl Word := [(2, 0x8000), (3, 0x10000), (4, 0x7FFFFFFF), (5, 0x80000000), (6, 0x3FFFFFFF), (7, 0x10000)]
def sDisp (held : Option Reserved) : State :=
  agentL recordRegs (launch 0x8000 3 0 2 [(0x60, 7), (0x9C, 9)] ++ kernelObj) { held := held }
def heldFor (a : Nat) : Reserved := { record := shared a, slot := 15, kb := 16, scratch := 0x100, segs := 1, priv := 0 }

def noKernel : Kernel := ⟨0, 0, 0, 0, 0, 0, 0, []⟩

def dispPremise (s : State) (b : Nat) : Bool :=
  (mkEnv s).isSome && (envOf s).isAgent && agCause s (servedBy s (envOf s).core) (pairAddr (envOf s) 2) 256 == none &&
    pairAddr (envOf s) 2 == shared 0x8000 && decide (((envOf s).ctx.readS b).toNat < 0x80000000)

/-- The issuer of DISP's forms: a record the agent reaches and one it does not, an index in range and one that is not, and no
reservation, one for another record, and one for its own. -/
theorem witness_disp :
    Free (envOf (sDisp none)) [srcS 2, srcS 3, srcS 4, dstS 1] ∧ dispPremise (sDisp none) 4 = true ∧ dispPremise (sDisp none) 5 = false ∧
      servedBy (sDisp none) 0 = 1 ∧
      (kernelOn (sDisp none) 0 1 (shared 0x8000)).isSome = true ∧
      (let k := (kernelOn (sDisp none) 0 1 (shared 0x8000)).getD noKernel
       (roomFor (sDisp none) 0 1 (shared 0x8000) k none).isSome = true ∧
       roomFor { sDisp none with funcs := [(1, { fnL with privUsed := [0, 1] })] } 0 1 (shared 0x8000) k none = none) ∧
      dispPremise (sDisp (some (heldFor 0x8000))) 4 = true ∧ dispPremise (sDisp (some (heldFor 0x8100))) 4 = true ∧
      kernelOn { sDisp none with funcs := [(1, { fnL with loaded := [] })] } 0 1 (shared 0x8000) = none ∧
      agCause (sDisp none) 1 (shared 0x3FFFFFFF) 256 ≠ none ∧
      (let e := envOf (sDisp (some (heldFor 0x8000)))
       let far := sDisp (some { heldFor 0 with record := pairAddr e 6 })
       (heldFor 0x8000).record = pairAddr e 2 ∧ (heldFor 0x8100).record ≠ pairAddr e 2 ∧ 0x80000000 ≤ (e.ctx.readS 5).toNat ∧
         (far.core 0).held.any (·.record == pairAddr (envOf far) 6) = true ∧ agCause far 1 (pairAddr (envOf far) 6) 256 ≠ none ∧
         (let u := agTouch 0 (pairAddr e 2) 256 (sDisp none)
          (kernelOn u 0 1 (shared 0x8000)).isSome = true ∧
            (roomFor u 0 1 (shared 0x8000) ((kernelOn u 0 1 (shared 0x8000)).getD noKernel) none).isSome = true)) := by
  refine ⟨free_of (by decide +kernel), ?_⟩
  decide +kernel

/-- A team of core 0 in slot 0: its status and whether it runs as W16. -/
def sStart (st : TeamStatus) (w16 : Bool) (landing : Bool) : State :=
  { agentState {} with
    teams := [(0, { team1 with status := st, w16 := w16, g := 0, ngrp := 0, slots := [(0, { st := if landing then .landing else .landed })] })] }

theorem witness_team_start :
    let landing := fun (s : State) => (s.team 0 0).slots.any (fun l => l.2.st == .landing)
    let asks := fun (v : State) =>
      v.setTeam 0 0 { v.team 0 0 with status := .starting, setwReq := bits (v.team 0 0).header.toNat 2 0, setwWait := some v.time }
    let asked := fun (s : State) => asks (acquireStart 0 (s.team 0 0) s)
    landing (sStart .starting false true) = true ∧ landing (sStart .resuming false false) = false ∧
      ((sStart .resuming false false).team 0 0).status = .resuming ∧ ((sStart .starting false false).team 0 0).status = .starting ∧
      (setwGrant (asked (sStart .starting true false)) 0 0).isSome = true ∧ ((sStart .starting true false).team 0 0).stopped = false ∧
      ((sStart .starting true false).team 0 0).killed = false ∧ ((sStart .starting true false).team 0 0).saving = false ∧
      (let s := sStart .resuming true false
       (s.team 0 0).w16 = true ∧ (s.team 0 0).g = 0 ∧ (setwGrant (asks s) 0 0).isSome = true) := by
  decide +kernel

/-- EXIT with lane 15 active alone, and of a whole team; team-scalar mode under a predicate that holds and one that does not. -/
theorem witness_exit :
    (envOf sGroup).isGroup = true ∧ (mkEnv sGroup).isSome = true ∧ (mkEnv sScalar).isSome = true ∧ (envOf sScalar).isScalar = true ∧
      (envOf sScalar).ctxGuard = true ∧
      (let s := scalarState { mr := 0x80 + 1024 }
       (envOf s).isScalar = true ∧ (envOf s).ctxGuard = false) := by
  decide +kernel

/-- Ends of a team: by EXIT, with a failed matrix command, of a provisional team, of one aborted under RESTART, and one that has ended. -/
theorem witness_team_end :
    let s := fun (k : EndKind) (prov : Bool) (fail : Nat) =>
      groupState 0 { team1 with status := .ending, endKind := k, prov := prov } { group1 {} [] with matrixFail := fail }
    let T := fun (s : State) => s.team 0 0
    (T (s .exit false 0)).status = .ending ∧ (T (s .exit false 0)).endedProv = false ∧ deferredCause (s .exit false 0) 0 0 = none ∧
      deferredCause (s .exit false cPageAbsent) 0 0 = some cPageAbsent ∧ deferredCause (s .exit true 0) 0 0 = none ∧
      ((T (s .exit true 0)).prov && ((T (s .exit true 0)).endKind == .exit)) = true ∧ (T (s .abort false cPageAbsent)).endKind = .abort ∧
      (T sGroup).status ≠ .ending := by decide +kernel

/-- The agent of core 0 with no event pending, one, a register number, and a value that sets a reserved bit. -/
def sWait (ev : Word) : State :=
  agentL [(2, 0xFFFFFC), (3, 0x10000), (4, 5), (5, 6), (6, 0xFF1F), (7, 0x20)] (wordsAt (shared 0xFFFFFC) [5]) { events := ev }

theorem witness_waitev :
    let s := sWait 0
    let e := envOf s
    let at_ := pairAddr e 2
    let v := acquireSystem (servedBy s e.core) s
    Issues s e ∧ e.isAgent = true ∧ Free e [srcS 2, srcS 3, srcS 4, dstS 1] ∧ Free e [srcS 2, srcS 3, srcS 5, dstS 1] ∧
      (hTarget at_ = 1 ∧ agentRangeBad s at_ 1 = false ∧ t1Owner s (hAddr at_) = some (servedBy s e.core) ∧ at_ % 4 = 0 ∧
      word (leNat (readBytes v.mem at_ 4)) = e.ctx.readS 4 ∧ word (leNat (readBytes v.mem at_ 4)) ≠ e.ctx.readS 5 ∧
      eventPending v e.core = false ∧ eventPending (acquireSystem 1 (sWait 0x400)) 0 = true ∧ eventPending (sWait 0x800) 0 = false) ∧
      Free e [srcS 6] ∧
      (bits (e.ctx.readS 6).toNat 7 5 = 0 ∧ bits (e.ctx.readS 6).toNat 31 16 = 0 ∧
      s.outStores.any (fun o => o.core == e.core && o.team == e.party) = false ∧
      [({ core := 0, team := e.party, f := 1, host := true } : OutStore)].any (fun o => o.core == e.core && o.team == e.party) = true) ∧
      (let g := bits (e.ctx.readS 6).toNat 4 0
       let vec := bits (e.ctx.readS 6).toNat 15 8
       let with_ := fun (fn : Func) => { s with funcs := s.funcs ++ [(31, fn)] }
       g = 31 ∧ vec = 255 ∧ (vec < (s.func g).msixSize ∧ (s.func g).msixMasked.contains vec = false) ∧
         (vec < ((with_ { msixMasked := [255] }).func g).msixSize ∧ ((with_ { msixMasked := [255] }).func g).msixMasked.contains vec = true) ∧
         ((with_ { msixSize := 255 }).func g).msixSize ≤ vec) := by
  refine ⟨issues_of (by decide +kernel), by decide +kernel, free_of (by decide +kernel), free_of (by decide +kernel), by decide +kernel,
    free_of (by decide +kernel), by decide +kernel, by decide +kernel⟩

/-- CSRRD and CSRWR: registers of the core, of the function and of the device, one that is not assigned, one that is read-only, a reserved
value, and MAPDATA's neighbours (numbers 0x123 and 0x122). -/
theorem witness_csr :
    let s := agentL [(2, 0x83), (3, 0x1123), (4, 0x1080), (5, 0x800), (6, 0x7FF), (7, 0x1063), (8, 0x00FFFFFF), (9, 0x10D0)] [] {}
    let e := envOf s
    let val := fun (z : Nat) => (e.ctx.readS z).toNat
    let reads := fun (z : Nat) => csrRead s e.core (xFunc (val z)) (xCtx (val z)) (xNum (val z))
    let barred := fun (z : Nat) => csrFixed (xNum (val z)) || (!coreCsrKnown (xNum (val z)) && !agentMayWrite s (servedBy s e.core) (xFunc (val z)) (xNum (val z)))
    Issues s e ∧ Free e [srcS 2, dstS 1] ∧ Free e [srcS 2, srcS 6] ∧
      ([2, 3, 4, 7, 9].all (fun z => bits (val z) 31 24 == 0) = true ∧
      (reads 2).isSome = true ∧ reads 3 = none ∧ (reads 4).isSome = true ∧ barred 4 = true ∧ barred 2 = false ∧
      csrReserved (xNum (val 2)) (e.ctx.readS 5) = true ∧ csrReserved (xNum (val 2)) (e.ctx.readS 6) = false ∧
      coreCsrKnown (xNum (val 2)) = true ∧
      (match coreStore e.core (xCtx (val 2)) (xNum (val 2)) (e.ctx.readS 6) s with
        | .ok _ => true
        | .error _ => false) = true ∧
      (reads 7).isSome = true ∧ barred 7 = false ∧ coreCsrKnown (xNum (val 7)) = false ∧ csrReserved (xNum (val 7)) (e.ctx.readS 8) = false ∧
      (reads 9).isSome = true ∧ barred 9 = true) := by
  refine ⟨issues_of (by decide +kernel), free_of (by decide +kernel), free_of (by decide +kernel), by decide +kernel⟩

/-- A driver's write of TINVALO and of a register it may not write; WATCHHI of the last and of no line of shared memory; a stopped agent. -/
theorem witness_driver_write :
    let s := { agentL [] [] with cores := [(0, { watchlo := 0x0FFFFFC0, agentStopped := true })] }
    (s.power == .service && hostMayWrite s 1 1 0x046 && !csrReserved 0x046 0xFFFF0000) = true ∧ 0x046 ∈ [0x042, 0x046] ∧
      (s.power == .service && hostMayWrite s 1 1 0x052 && !csrReserved 0x052 0) = false ∧
      (let pa := fun (v : Word) => (s.core 0).watchlo.toNat + v.toNat * 2 ^ 32
       pa 0x10000 / 2 ^ 48 = 1 ∧ pa 0x20000 / 2 ^ 48 ≠ 1 ∧ hAddr (pa 0x10000) < Config.sharedBytes ∧ hAddr (pa 0x10000) + 64 = Config.sharedBytes) ∧
      (s.core 0).agentStopped = true ∧ (agentState {}).core 0 ≠ s.core 0 := by decide +kernel

/-- TLBINV of one page, of a reserved field and of everything; a core with an operation on the page; an acknowledgement. -/
def shootCore : Core := { tlb := [page1], ops := [(0, some { kind := .copy, lower := 0, slot := 0, group := 0, f := 1, pages := [page1] })] }
def sShoot (x : Core) : State := agentL [(2, 0x10000), (4, 1), (5, 0x41), (6, 0x21), (7, 0x10001)] [] x

theorem witness_tlbinv :
    let e := envOf (sShoot {})
    let va := fun (a : Nat) => (e.ctx.readS a).toNat + bits (e.ctx.readS (a + 1)).toNat 23 0 * 2 ^ 32
    let b := fun (z : Nat) => (e.ctx.readS z).toNat
    let p := fun (s : State) => beginShoot (shootOf (some e.core) (bits (b 4) 4 0) (va 2) (b 4)) s
    Issues (sShoot {}) e ∧ e.isAgent = true ∧ Free e [srcS 2, srcS 3, srcS 4, dstS 1] ∧
      (bits (b 5) 15 6 ≠ 0 ∧ bits (b 4) 15 6 = 0 ∧ bit (b 4) 5 = false ∧ va 2 % 65536 = 0 ∧ bits (b 6) 15 6 = 0 ∧ bit (b 6) 5 = true ∧
        va 7 % 65536 ≠ 0 ∧ (sShoot {}).shoots.any (fun k => k.agent == some e.core) = false ∧ (p (sShoot {})).1.pending = [] ∧
        (p (sShoot shootCore)).1.pending ≠ []) :=
  ⟨issues_of (by decide +kernel), by decide +kernel, free_of (by decide +kernel), by decide +kernel⟩

theorem witness_shoot_ack :
    let k : Shoot := { agent := none, f := 1, va := 0x10000, len := 0x10000, all := false, started := true, pending := [0] }
    let j : Shoot := { k with agent := some 0 }
    (k ∈ { sShoot {} with shoots := [k] }.shoots ∧ k.agent = none ∧ 0 ∈ k.pending ∧ coreHolds { sShoot {} with shoots := [k] } k 0 = false) ∧
      (j ∈ { sShoot {} with shoots := [k, j] }.shoots ∧ j.agent ≠ none ∧ coreHolds (sShoot shootCore) k 0 = true) := by decide +kernel

/-- TINVCTL: a locked slice, a reserved field, and one that no core holds. -/
theorem witness_tinvctl :
    (driverMay { sShoot {} with funcs := [(1, { fnL with tdisp := .locked })] } 1 = false ∧ driverMay (sShoot {}) 1 = true ∧
      bits 0x41 15 6 ≠ 0 ∧ bits 0xFFFF003F 15 6 = 0 ∧ (sShoot {}).shoots = []) ∧
      ∀ c, coreHolds (sShoot {}) (shootOf none 1 0xFFFF0000 0xFFFF003F) c = false := by
  refine ⟨by decide +kernel, fun c => ?_⟩
  cases c with
  | zero => decide +kernel
  | succ n => rfl

/-! A queue with one entry published at its last place, and a launch in each state of admission. -/


def entryCells (entry kind : Nat) : List Host.Cell := fields 0x100 [(8 * 7, entry), (8 * 7 + 4, 0x10000 + kind * 0x10000000)]
def sQueue (tail : Nat) (kind state flags nteam deps : Nat) (more : List (Nat × Nat)) (fn : Func := fnL) : State :=
  { agentL [] (fields 0 [(0, tail), (4, 0xFFFFFFFF), (8, 0x100), (0xC, 0x10000), (0x10, 8), (0x14, 1)] ++
      entryCells (if kind = 0 then 0x8000 else 0x9000) kind ++
      launch 0x8000 state flags nteam ([(0x20, deps), (0x24, 0xFFFF), (0x28, 0xFFFF), (0x4C, 1)] ++ more) ++
      fields 0x9000 [(4, 0), (8, 0x10000), (0xC, 0x10000), (0x14, 4), (0x18, 0xA000), (0x1C, 0x10000)] ++ kernelObj) {} with
    funcs := [(1, fn)] }

theorem witness_tail :
    let s := fun k => sQueue 0xFFFFFFFF k 1 0 2 0 []
    let u := fun k => put32 1 (qHdr (s k) 1 0) 0 (s k)
    let w := fun k => agTouch (leadCore (s k) 1) (qHdr (u k) 1 0) 64 (u k)
    let published := fun (k n : Nat) => (nextEntry (w k) 1 0).any (fun x => x / 2 ^ 56 == n) && !agentRangeBad (w k) (entryAt (w k) 1 0) 8
    driverMay (s 0) 1 = true ∧ (s 0).power = .service ∧ agCause (u 0) 1 (qHdr (u 0) 1 0) 64 = none ∧ published 0 0 = true ∧
      published 1 16 = true ∧ published 2 32 = true ∧
      driverMay { s 0 with funcs := [(1, { fnL with tdisp := .run })] } 1 = false ∧ ({ s 0 with power := Power.safe } : State).power ≠ .service := by
  decide +kernel

/-- Admission: a launch that runs, one without a team, one that waits, one that is refused, one in a wrong state; and a load. -/
def admits (s : State) : Option Nat × Bool × Option Nat :=
  let r := shared 0x8000
  let u := agTouch 0 r 256 (takeEntry 1 0 s)
  let v := put32 1 (rQUEUE r) 0 u
  (nextEntry s 1 0, agCause (takeEntry 1 0 s) 1 r 256 == none && (u.func 1).tdisp != .locked && !recSpec v 1 r &&
     ag32 v 1 (rSTOPAT r) == 0 && ag32 v 1 (rPREEMPT r) == 0, recordCause v 1 (ag32 v 1 (qHdr v 1 0 + 0x14) % 32) r false)

theorem witness_admission :
    let r := shared 0x8000
    admits (sQueue 0 0 1 0 0x7FFFFFFF 0 []) = (some r, true, none) ∧ admits (sQueue 0 0 1 0 0 0 []) = (some r, true, none) ∧
      admits (sQueue 0 0 2 0 1 2 []) = (some r, true, none) ∧ admits (sQueue 0 0 1 0 0x80000000 0 []) = (some r, true, some cLaunchRange) ∧
      recState (sQueue 0 0 2 0 1 2 []) 1 r = 2 ∧ (atomDecW 1 (rDEPS r) (sQueue 0 0 2 0 1 2 [])).1 = 2 ∧
      recState (sQueue 0 0 3 0 1 0 []) 1 r = 3 := by decide +kernel

theorem witness_load :
    let s := sQueue 0 1 1 0 1 0 [] { fnL with loaded := [] }
    let r := shared 0x9000
    let u := agTouch 0 r 64 (takeEntry 1 0 s)
    let v := loadView u 1 r
    let reason := loadReason u 1 v
    (nextEntry s 1 0).map (· / 2 ^ 56) = some 16 ∧ (nextEntry s 1 0).map (· % 2 ^ 56) = some r ∧ agCause (takeEntry 1 0 s) 1 r 64 = none ∧
      reason.1 = 0 ∧ (loadReads u 1 v).all (fun y => !agentRangeBad u y.1 y.2) = true ∧
      agCause u 1 (ag64 u 1 (r + 0x18)) (refusalBytes reason.1 v.kernel v.target (ag32 u 1 (r + 0x14)) reason.2).length = none := by
  decide +kernel

/-- The agents' taking of an event changes nothing but the cores. -/
theorem takeAll_only (f n : Nat) (s : State) : takeAll f n s = { s with cores := (takeAll f n s).cores } := by
  have go : ∀ (cs : List Nat) (s : State),
      cs.foldl (fun s c => takeEvent c n s) s = { s with cores := (cs.foldl (fun s c => takeEvent c n s) s).cores } := by
    intro cs
    induction cs with
    | nil => exact fun _ => rfl
    | cons c r ih => exact fun s => (ih (takeEvent c n s)).trans rfl
  exact go _ s

/-- Settlement of a speculative launch of a shape that is known, 0x7FFFFFFF, and of one that is not. -/
theorem witness_settlement :
    let r := shared 0x8000
    let s := fun v => agentL [] (launch 0x8000 3 4 1 [(0x38, 0x9F00), (0x3C, 0x10000), (0x48, v)] ++ fields 0x9F00 [(0, 0xFFFFFFFF)])
    (∀ x, learnShape 1 r (takeAll 1 4 (s 0x7FFFFFFF)) = x → ag32 x 1 (rSHAPEV r) ≠ 0xFFFFFFFF) ∧
      ∀ x, learnShape 1 r (takeAll 1 4 (s 0xFFFFFFFF)) = x → ag32 x 1 (rSHAPEV r) = 0xFFFFFFFF := by
  refine ⟨?_, ?_⟩ <;>
    · rintro x rfl
      rw [takeAll_only]
      decide +kernel

/-- CONFIRM and SQUASH: no such team, one that is not provisional, one that is, and ended ones with and without a kept cause. -/
def sProv (st : TeamStatus) (prov ended : Bool) (kept : Nat) : State :=
  { agentL recordRegs [] with
    teams := [(15, { team1 with status := st, record := shared 0x8000, idx := 0x7FFFFFFF, prov := prov, endedProv := ended, kept := kept })] }

theorem witness_confirm :
    let r : SysxArgs := ⟨1, 2, 4⟩
    let named := fun (s : State) => namedTeam r (envOf s) s
    let T := fun (s : State) => s.team 0 15
    Issues (sProv .running true false 0) (envOf (sProv .running true false 0)) ∧
      Free (envOf (sProv .running true false 0)) [srcS 2, srcS 3, srcS 4, dstS 1] ∧
      (named (agentL recordRegs []) = none ∧ (envOf (sProv .running true false 0)).ctx.progress.started = false ∧
        named (sProv .running false false 0) = some (0, 15) ∧ (T (sProv .running false false 0)).prov = false ∧
        named (sProv .ending true true 0) = some (0, 15) ∧ named (sProv .ending true true cPageAbsent) = some (0, 15) ∧
        named (sProv .running true false 0) = some (0, 15) ∧ (T (sProv .running true false 0)).status ≠ .ending ∧
        (T (sProv .running true true 0)).status ≠ .ending ∧
        storesAnswered (commitHeld 0 15 (sProv .ending true true 0)) 0 15 = true ∧
        (let s := { sProv .ending true true 0 with outStores := [{ core := 0, team := 15, f := 1, host := true }] }
         storesAnswered (commitHeld 0 15 s) 0 15 = false)) :=
  ⟨issues_of (by decide +kernel), free_of (by decide +kernel), by decide +kernel⟩

/-! A group of sixteen threads that spawns into node 0: batches of 16 in 2047 blocks at 0x7000, graph 0x6000, template 0x8200. -/

def basket (cfg tail free disp opener timer : Nat) : List Host.Cell :=
  fields 0x4000 [(0, 0x8200), (4, 0x10000), (8, 0x20000), (0xC, 0x10000), (0x10, 0x6000), (0x14, 0x10000), (0x18, cfg), (0x1C, timer), (0x20, tail),
    (0x24, free), (0x28, disp), (0x2C, opener)]
def graphCells (count succ status notify : Nat) : List Host.Cell := fields 0x6000 [(0, count), (4, succ), (8, status), (12, notify)]
def openCfg : Nat := 2047 * 65536 + 32 + 8 + 7

/-- The spawning group: s4 names node 0, s5 the node after the last; s6 is a shape; p1 selects lanes 0 and 15. -/
def sSpawn (prov : Bool) (mem : List Host.Cell) : State :=
  { groupState 0 { team1 with record := shared 0x8000, prov := prov }
      { group1 { s := [(4, 0), (5, 1), (6, 0x7FFFFFFF)], win := [(1, { kind := .global, frame := 0x10000, limit := 64 })] } [] with
        p := (List.range 16).map (fun l => (8 * l + 1, l == 0 || l == 15)) } { tlb := [page1] } with
    funcs := [(1, fnL)], mem := mem }

theorem witness_spawn :
    let s := sSpawn false (basket openCfg 0xFFFFFFF0 0xFFFFFFF0 0 0 0)
    let e := envOf s
    let val := fun (z : Nat) => (e.ctx.readS z).toNat
    let b := readBasket s 1 0
    let sel := fun (p : Nat) => e.active.filter (fun l => e.group.readP p l)
    let full := fun (s : State) (n : Nat) => decide (b.nblk * b.batch < (ag32 s 1 (bTAIL b) + n + 2 ^ 32 - ag32 s 1 (bFREE b)) % 2 ^ 32)
    let usable := fun (s : State) => (readBasket s 1 0).isOpen && (readBasket s 1 0).code != 0 && graphStatus s 1 (readBasket s 1 0) == 0
    WholeGroup s e ∧ (e.profileL = false ∧ isStack e.core = false ∧ e.team.prov = false ∧ 56 < e.team.regs) ∧ Free e [srcS 4] ∧ Free e [srcS 5] ∧
      Free e ((span 56 b.words).map (fun r => srcV r)) ∧
      (nnode s 1 ≤ val 5 ∧ val 4 < nnode s 1 ∧ 56 + b.words - 1 < e.team.regs ∧ usable s = true ∧ (sel 1).length = 2 ∧ sel 2 = [] ∧
        full s 2 = false ∧ full (sSpawn false (basket openCfg 0xFFFFFFF0 0xFFFF8000 0 0 0)) 2 = true ∧
        usable (sSpawn false (basket (openCfg - 32) 0 0 0 0 0)) = false ∧ (envOf (sSpawn true [])).team.prov = true) := by
  refine ⟨whole_of (by decide +kernel), by decide +kernel, free_of (by decide +kernel), free_of (by decide +kernel), free_of (by decide +kernel),
    by decide +kernel⟩

/-- POSTS to a shape word that stands unposted, and to one that does not. -/
theorem witness_posts :
    let at_ := fun (s : State) => locate (envOf s) ((envOf s).ctx.window 1) 0 0 4 (fun _ => false) 0 .atomic (fun tag => tag) (endRestart (envOf s) s)
    let s := fun w => sSpawn false (wordsAt (shared 0) [w] ++ fields 0x10000 [(0, w)])
    let h := fun w => ((okVal [] (at_ (s w)).1).headD { h := 0 }).h
    let old := fun w => leNat (readBytes (recordRelease (envOf (s w)) (h w / 64) (flushLine (envOf (s w)) (h w / 64) (at_ (s w)).2)).mem (h w) 4)
    WholeGroup (s 5) (envOf (s 5)) ∧ Free (envOf (s 5)) [srcS 6, dstS 1] ∧
      (((envOf (s 5)).ctx.window 1).kind = .global ∧ ((envOf (s 5)).ctx.window 1).frame % 4 = 0 ∧ ((envOf (s 5)).ctx.readS 6).toNat ≤ 0x7FFFFFFF ∧
        succeeds (at_ (s 5)) = true ∧ hIsSpad (h 5) = false ∧ hTarget (h 5) = 1 ∧ old 5 = 5 ∧ old 0xFFFFFFFF = 0xFFFFFFFF) := by
  refine ⟨whole_of (by decide +kernel), free_of (by decide +kernel), by decide +kernel⟩

/-- Batches: none ready, a full one, one of a failing graph, one of a stopped template, one with a template that is not loaded. -/
def sBatch (filled status flags : Nat) (loaded : Bool) (cfg : Nat := openCfg) : State :=
  { agentL [] (basket cfg 16 0 0 0 0 ++ graphCells 16 0xFFFF status 0 ++ launch 0x8200 0 flags 0 [(0x24, 0xFFFF), (0x4C, 1)] ++
      kernelObj ++ fields 0x20000 [(0, filled)]) {} with
    funcs := [(1, if loaded then fnL else { fnL with loaded := [] })] }

theorem witness_batch :
    let hdr := shared 0x4000
    let u := fun (s : State) => takeEvent 0 5 (agTouch 0 hdr 64 s)
    let b := fun (s : State) => readBasket (u s) 1 0
    let ready := fun (s : State) => readyBatch (u s) 1 (b s)
    (nodesAt (sBatch 15 0 0 true) 1 = hdr ∧ agCause (sBatch 15 0 0 true) 1 hdr 64 = none ∧ nnode (sBatch 15 0 0 true) 1 ≤ 1) ∧
      (let far := { sBatch 15 0 0 true with funcs := [(1, { fnL with csr := (0x0D6, 0x1000000) :: fnL.csr })] }
       agCause far 1 (nodesAt far 1) 64 ≠ none ∧ 0 < nnode far 1) ∧
      ready (sBatch 15 0 0 true) = none ∧ ready (sBatch 16 0 0 true) = some (0, 16) ∧ 0 < nnode (u (sBatch 16 0 0 true)) 1 ∧
      nnode (u (sBatch 16 0 0 true)) 1 ≤ 1 ∧
      (ready (sBatch 16 1 0 true) = some (0, 16) ∧ graphStatus (u (sBatch 16 1 0 true)) 1 (b (sBatch 16 1 0 true)) = 1) ∧
      graphStatus (u (sBatch 16 0 8 true)) 1 (b (sBatch 16 0 8 true)) = 0 ∧
      bit (recFlags (u (sBatch 16 0 8 true)) 1 (b (sBatch 16 0 8 true)).template) 3 = true ∧
      bit (recFlags (u (sBatch 16 0 0 true)) 1 (b (sBatch 16 0 0 true)).template) 3 = false ∧
      templateCause (u (sBatch 16 0 0 false)) 1 (b (sBatch 16 0 0 false)) = some cKernelUnloaded ∧
      templateCause (u (sBatch 16 0 0 true)) 1 (b (sBatch 16 0 0 true)) = none := by
  decide +kernel

/-- Timers: a Basket that is armed already, one without a timer, one that is armed now; a lapse. -/
theorem witness_timer :
    let u := fun (s : State) => takeEvent 0 5 (agTouch 0 (shared 0x4000) 64 s)
    let s := fun (opener timer : Nat) => agentL [] (basket openCfg 17 0 0 opener timer) {}
    let b := fun (s : State) => readBasket (u s) 1 0
    let arm := fun (s : State) => casW 1 (bOPENER (b s)) 0 0x80000000 (u s)
    let timer := fun (s : State) => ag32 (arm s).2 1 ((b s).at_ + 0x1C)
    (arm (s 0x80000000 0)).1 = false ∧ ((arm (s 0 0)).1 = true ∧ timer (s 0 0) = 0) ∧
      ((arm (s 0 0xFFFFFFFF)).1 = true ∧ timer (s 0 0xFFFFFFFF) ≠ 0) ∧
      (let closes := fun (s : State) => let w := takeEvent 0 6 (agTouch 0 (shared 0x4000) 64 s)
         let c := readBasket w 1 0
         c.code != 0 && c.nblk != 0 && ag32 w 1 (bTAIL c) % c.batch != 0
       closes (s 0x80000000 5) = true ∧ closes (agentL [] (basket openCfg 16 0 0 0 5) {}) = false) := by
  decide +kernel

/-- Graphs: one with records left, one that has ended, one whose successor is none, one that names a launch there is not, one that fails. -/
theorem witness_graph :
    let g := shared 0x6000
    let s := fun (count succ status : Nat) => agentL [] (graphCells count succ status 0x1FF1F) {}
    let u := fun (s : State) => takeAll 1 7 (agTouch 0 g 16 s)
    let of_ := fun (count succ status : Nat) (x : State) => u (s count succ status) = x → ag32 x 1 g = count ∧ ag32 x 1 (g + 8) = status ∧
      ag32 x 1 (g + 4) % 65536 = succ
    agCause (s 0 0xFFFF 0) 1 g 16 = none ∧ (∀ x, of_ 1 0xFFFF 0 x) ∧ (∀ x, of_ 0 0xFFFF 2 x) ∧ (∀ x, of_ 0 0xFFFF 0 x) ∧ (∀ x, of_ 0 0xFFFF 1 x) ∧
      succValid (s 0 0xFFFF 0) 1 0xFFFF = true ∧ succValid (s 0 0xFFF 0) 1 0xFFF = false := by
  refine ⟨by decide +kernel, ?_, ?_, ?_, ?_, by decide +kernel, by decide +kernel⟩ <;>
    · rintro x rfl
      simp only
      rw [takeAll_only]
      decide +kernel

/-! A stopped group in slot 0 of core 0 and a stopped team-scalar context, with the agent of core 0 as the issuer; STAGE names context 5 or
112. -/

def stoppedTeam (scalar : Bool) (header : Word) (idem : Bool) : Team :=
  let t := { team1 with header := header, stopped := scalar, idem := idem }
  if scalar then { t with status := .scalar, g := 0, ngrp := 0 } else t

def sStopped (scalar : Bool) (st : Word) (fr : Frame) (header : Word := 0x10200) (idem : Bool := false) : State :=
  { who := some (.ctx (.agent 0) 0), power := .service, funcs := [(1, fnL)],
    cores := [(0, { ctx := { pc := 0x1008 }, stage := st, frames := [(if scalar then 112 else 5, fr)] })],
    teams := [(0, stoppedTeam scalar header idem)],
    groups := if scalar then [] else [(0, { group1 {} [] with ctxNo := 5, stopped := true })] }

def newFr (cause : Nat) : Frame := { new := true, live := true, cause := cause, tpc := 0x1008, rpc := 0x100C, gang := 0xFFFF, addr := 0xFFFFFF }

theorem witness_trap_return :
    let s := fun (c : Nat) => sStopped false 5 (newFr c)
    let e := envOf (s cBreakpoint)
    let team := fun (s : State) (no : Nat) => ((frameEnv s 0 no).map (·.team)).getD {}
    Issues (s cBreakpoint) e ∧ e.isAgent = true ∧ (s cBreakpoint).request = none ∧
      (bits ((s cBreakpoint).core 0).stage.toNat 22 16 = 0 ∧ bit ((s cBreakpoint).core 0).stage.toNat 28 = false ∧
        bits ((sStopped false 0x50000 (newFr cBreakpoint)).core 0).stage.toNat 22 16 = 5 ∧
        bits ((sStopped true 0x700000 (newFr cBreakpoint)).core 0).stage.toNat 22 16 = 112) ∧
      (frameEnv (s cBreakpoint) 0 6 = none ∧ (frameEnv (s cBreakpoint) 0 5).isSome = true ∧ (team (s cBreakpoint) 5).status ≠ .ending ∧
        actionOk 5 (newFr cBreakpoint) (team (s cBreakpoint) 5) 5 = false ∧
        [0, 1, 2, 3, 4].all (fun k => actionOk k (newFr cBreakpoint) (team (s cBreakpoint) 5) 5) = true ∧
        actionOk 5 (newFr cPageAbsent) (team (s cPageAbsent) 5) 5 = true ∧
        actionOk 6 (newFr cPageAbsent) (team (sStopped false 0x50000 (newFr cPageAbsent) 0x200 true) 5) 5 = true ∧
        actionOk 2 (newFr cBreakpoint) (team (sStopped true 0x700000 (newFr cBreakpoint)) 112) 112 = false ∧
        actionOk 1 (newFr cBreakpoint) (team (sStopped true 0x700000 (newFr cBreakpoint)) 112) 112 = true) ∧
      (let x := sStopped false 0x50000 (newFr cBreakpoint)
       let y := { x with funcs := [(1, { fnL with csr := (0x050, 1) :: fnL.csr })] }
       rttEnv (s cBreakpoint) 0 0 = none ∧ (rttEnv x 0 5).isSome = true ∧ (rttEnv y 0 5).isSome = true ∧
         actionOk 2 (newFr cBreakpoint) (team x 5) 5 = true ∧ debuggerKeeps x 2 (newFr cBreakpoint) (team x 5) = false ∧
         debuggerKeeps y 2 (newFr cBreakpoint) (team y 5) = true ∧ debuggerKeeps y 1 (newFr cBreakpoint) (team y 5) = false) :=
  ⟨issues_of (by decide +kernel), by decide +kernel, by decide +kernel, by decide +kernel, by decide +kernel, by decide +kernel⟩

/-- A debug request of function 1 on context 5 of core 0, one of function 2, and one on a context that runs. -/
theorem witness_debug :
    let v : Word := 0xA00000
    let s := fun (f : Nat) (fr : Frame) => { sStopped false 0 fr with request := some { f := f, value := v } }
    let mine := fun (s : State) (f : Nat) => (ctxEnv s (dbgCore v) (dbgCtx v) 0 0).any (fun x => x.team.f == f)
    let x := (frameEnv (s 1 (newFr cStep)) 0 5).getD (envOf sAgent)
    let run := { s 1 {} with groups := [(0, { group1 {} [] with ctxNo := 5 })] }
    let y := (frameEnv run 0 5).getD (envOf sAgent)
    dbgCore v = 0 ∧ dbgCtx v = 5 ∧ mine (s 1 (newFr cStep)) 1 = true ∧ mine (s 2 (newFr cStep)) 2 = false ∧
      ((s 1 (newFr cStep)).core 0).agentStopped = false ∧ frameEnv (s 1 (newFr cStep)) 0 5 = some x ∧
      actionOk 1 (newFr cStep) x.team 5 = true ∧ actionOk 0 (newFr cStep) x.team 5 = true ∧ x.team.status ≠ .ending ∧
      actionOk 1 {} x.team 5 = false ∧ frameEnv run 0 5 = some y ∧ (run.core 0).frame 5 = {} ∧ y.isScalar = false ∧ y.team.killed = false ∧
      y.group.stopped = false ∧ (reportGang y.group).isSome = true ∧
      x.group.gangs ≠ [] ∧ x.group.handler = none := by decide +kernel

/-- FAIL and ABORT by team slot: a slot with no team, one whose team runs here under RESTART, and one of a team that does not; a group
with no gang left, whose lanes are parked. -/
theorem witness_trap_return_team :
    let s := fun (st : Word) (idem : Bool) => sStopped false st (newFr cBreakpoint) 0x200 idem
    let at_ := fun (s : State) => teamInSlot s 0 (bits (s.core 0).stage.toNat 27 24)
    let parked := { s 5 false with groups := [(0, { group1 {} [] with ctxNo := 5, stopped := true, gangs := [] })] }
    bit ((s 0x10000000 true).core 0).stage.toNat 28 = true ∧ at_ (s 0x11000000 true) = none ∧ at_ (s 0x10000000 true) = some (0, 0) ∧
      ((s 0 true).team 0 0).runsRestart = true ∧ ((s 0 true).team 0 0).killed = false ∧ ((s 0 false).team 0 0).runsRestart = false ∧
      ((s 0 true).team 0 0).status = .running ∧ ((s 0 true).team 0 0).endedProv = false ∧
      (parked.group 0 0 0).gangs = [] ∧ (reportGang (parked.group 0 0 0)).isSome = true := by decide +kernel

/-! A slice of one logical bank with one row block, mapped to the start of stack memory: 512 KiB. -/

def mapped0 : Nat := 0x80000000 + 2 ^ 40
def fnS : Func := { fnL with map := [(0, mapped0)], csr := fnL.csr ++ [(0x109, 0x01000001)] }
def bound0 : Tbl RowBlock := [(0, { owner := 1, bound := true, pgen := 1 })]

/-- SAVEG of the team in slot 0 into eight units at 0; slot 1 is free; the last register asks for one unit, the region at 64 KiB is too large
and that at 0x8000 not aligned. RESTG of a region that holds no image. -/
def sSave (fr : Frame) (t : Team) (g : Group) : State :=
  { agentL [(2, 0), (4, 0x700), (5, 0x701), (6, 0x100), (8, 0x10000), (10, 0x8000), (12, 0), (14, 1)] [] { frames := [(5, fr)] } with
    funcs := [(1, fnS)], rowBlocks := bound0, teams := [(0, t)], groups := [(0, { g with ctxNo := 5 })] }

theorem witness_save :
    let s := sSave {} team1 (group1 {} [])
    let e := envOf s
    let a := fun (z : Nat) => pairAddr e z
    let b := fun (z : Nat) => (e.ctx.readS z).toNat
    Issues s e ∧ e.isAgent = true ∧ s.request = none ∧ Free e [srcS 2, srcS 3, srcS 4, dstS 1] ∧
      (bits (b 4) 31 16 = 0 ∧ bits (b 4) 7 4 = 0 ∧ saveRefusal s 0 (a 2) (b 4) = 0 ∧ saveReady s 0 0 = true ∧
        newFrame (undoBars 0 0 s) 0 0 = false ∧ regionHeld s (servedBy s 0) (a 2) = false ∧
        (let bar := sSave {} team1 { group1 {} [] 0xFFFF 0x1FFC with
           gangs := [{ id := 3, pc := 0x1FFC, lanes := 0xFFFF, progress := { started := true } }] }
         saveRefusal bar 0 (a 2) (b 4) = 0 ∧ (bar.team 0 0).endedProv = false) ∧
        saveRefusal s 0 (a 2) (b 5) = 1 ∧ saveRefusal s 0 (a 10) (b 4) = 4 ∧
        saveRefusal { s with cores := [(0, { (s.core 0) with frames := [(5, newFr cStep)] })] } 0 (a 2) (b 4) = 3 ∧
        saveRefusal (sSave {} { team1 with scratch := 0x80000, header := 0x3FFF } (group1 {} [])) 0 (a 2) (b 6) = 2 ∧
        (let u := sSave {} team1 (group1 { results := [{ seq := 9, scalar := true, regs := [3], writes := [] }] } [])
         saveRefusal u 0 (a 2) (b 4) = 0 ∧ saveReady u 0 0 = false ∧ (u.team 0 0).endedProv = false) ∧
        (let u := sSave {} { team1 with status := .ending, prov := true, endedProv := true } (group1 {} [])
         saveRefusal u 0 (a 2) (b 4) = 0 ∧ (u.team 0 0).endedProv = true) ∧
        bits (b 14) 31 1 = 0) := by
  refine ⟨issues_of (by decide +kernel), by decide +kernel, by decide +kernel, free_of (by decide +kernel), by decide +kernel⟩

theorem witness_restore :
    let s := sSave {} team1 (group1 {} [])
    let p := regionRead (servedBy s 0) (pairAddr (envOf s) 12) 256 s
    succeeds p = true ∧ imw (okVal [] p.1) 0 ≠ 0x47534157 := by decide +kernel

/-- SAVENOW of a draining launch and of one that runs; a world switch of the two octets of a group, and of the last. -/
theorem witness_save_now :
    let s := fun st => agentL [] (launch 0x8000 st 0 2 []) {}
    let r := shared 0x8000
    agCause (s 4) 1 r 256 = none ∧ recState (agTouch 0 r 256 (s 4)) 1 r = 4 ∧ recState (agTouch 0 r 256 (s 3)) 1 r ≠ 4 := by decide +kernel

theorem witness_world_switch :
    let s := fun (go : Word) (inc : Word) (done : List Nat) => { sAgent with
      request := some { f := 1 }, funcs := [(1, { fnL with switched := done, csr := [(0x061, go + inc), (0x103, 0x80000001), (0x104, 6)] })] }
    let done := { s 0x80000000 2 [] with request := some { f := 1, args := [1] } }
    let last := fun (s : State) (octet : Nat) => (sharedOctets s 1).all (fun o => o == octet || (s.func 1).switched.contains o)
    reqFunc (s 0 0 []) = 1 ∧ fwArg (s 0x80000000 2 []) 0 ≠ 1 ∧ fwArg done 0 = 1 ∧ bit ((s 0 2 []).fcsr 1 0x061).toNat 31 = false ∧ bit ((s 0x80000000 2 []).fcsr 1 0x061).toNat 31 = true ∧
      last (s 0x80000000 2 []) 63 = false ∧ last (s 0x80000000 2 [32]) 63 = true ∧ bits ((s 0x80000000 2 []).fcsr 1 0x061).toNat 4 0 ≠ 1 := by
  decide +kernel

/-! Work for the agent of core 0: the launch at 0x8000 stands first on row 0, tickets from NEXT on. -/

def sWork (next : Nat) (k : List Restart) : State :=
  { agentL [] (fields 0x1000 [(0x10, 0x8000), (0x14, 0x10000)] ++ launch 0x8000 3 0 1 [(0x18, next), (0x24, 0xFFFF), (0x28, 0xFFFF)] ++ kernelObj) {} with
    funcs := [(1, { fnL with restarts := k })] }

theorem witness_claim :
    let s := sWork 0 []
    let r := shared 0x8000
    let p := atomAddW 1 (rNEXT r) 1 s
    let q := atomAddW 1 (rNEXT r) 1 (sWork 1 [])
    workFor (agentL [] [] {}) 0 1 = none ∧ workFor s 0 1 = some (.entry (shared 0x1000) r) ∧ recStop s 1 r = false ∧ recSpec s 1 r = false ∧
      (roomOn s 0 1 r none).isSome = true ∧ p.1 < recNteam p.2 1 r ∧ p.1 < 0x80000000 ∧ recNteam q.2 1 r ≤ q.1 := by decide +kernel

/-- An aborted team starts again once the walk from its TROOT, at 0x40000, finds an entry. -/
theorem witness_restart :
    let k : Restart := { record := shared 0x8000, idx := 0x7FFFFFFF, nteam := 1, priv := 0x8000000, va := 0x1000, aborts := [(0x10000, 16)] }
    let t := sWork 1 [k]
    let s := { t with funcs := [(1, { t.func 1 with csr := (0x040, 0x40001) :: (0x041, 0x10000) :: fnL.csr })],
                      mem := t.mem ++ fields 0x40000 [(0, 0x23)] }
    (s.func 1).restarts.find? (fun k => k.idx == 0x7FFFFFFF && pageFound s 1 k.va && servesLaunch s 0 1 k.record) = some k ∧
      k.prov = false ∧ (roomOn s 0 1 k.record (some (restartPriv s 1 k))).isSome = true ∧
      (s.func 1).restarts.find? (fun k => k.idx == 5 && pageFound s 1 k.va && servesLaunch s 0 1 k.record) = none := by decide +kernel

/-- RETIRE by each way a team can end, of a team of a node and of a provisional one; KICK of the last queue and past it, out of service. -/
theorem witness_retire :
    let s := fun (args : List Nat) => { sAgent with request := some { f := 1, args := args } }
    fwArg (s [0, 0, 4]) 2 = 4 ∧ (fwArg (s [0, 0, 2, 0, 0, 1]) 2 < 3 ∧ fwArg (s [0, 0, 2, 0, 0, 1]) 5 ≠ 0) ∧
      (fwArg (s [0, 0, 1, 1]) 2 < 3 ∧ fwArg (s [0, 0, 1, 1]) 5 = 0 ∧ fwArg (s [0, 0, 1, 1]) 3 = 1) ∧
      (fwArg (s [0, 0, 2, 0]) 2 = 2 ∧ fwArg (s [0, 0, 2, 0]) 3 ≠ 1) ∧ (fwArg (s [0, 0, 1, 0, 1]) 2 < 2 ∧ fwArg (s [0, 0, 1, 0, 1]) 4 = 1) ∧
      fwArg (s [0, 0, 1, 0, 0]) 4 ≠ 1 ∧ fwArg (s [0, 0, 2, 2]) 3 = 2 ∧ ((7 < 8) ∧ sAgent.power = .service) ∧ 8 ≤ 8 ∧ ({ sAgent with power := .safe } : State).power ≠ .service := by
  decide +kernel

/-! ## Premises met: slices, the Larder, power and the outside -/

/-- A request of function 1 on the slice of one logical bank with two row blocks, the first mapped to the start of stack memory. -/
def sSlice (value : Word) (fn : Func) : State :=
  { agentL [] [] {} with request := some { f := 1, value := value }, rowBlocks := bound0, funcs := [(1, fn)] }
def fnS2 (rb : Word) : Func :=
  { fnL with map := [(0, mapped0)], csr := fnL.csr ++ [(0x109, 0x02000001), (0x10C, rb)] }

theorem witness_slices :
    let bindable := fun (s : State) => mapSelOk s 1 && !bit (tget (s.func 1).map 0 (mapKey (mapSelBank s 1) (mapSelRb s 1))) 31 &&
      blockFree s (entryPa (reqValue s) 0) && sameBank s 1 (mapSelBank s 1) (entryPa (reqValue s) 0)
    let last := { sSlice 0x80000200 (fnS2 1) with rowBlocks := bound0 ++ [(1, { pgen := 0xFFFFFF })] }
    let may := fun (s : State) => s.power == .service && decide (1 < 32) && !(s.func 1).enabled && !bit (s.fcsr 1 0x118).toNat 31
    reqFunc (sSlice 0 fnL) = 1 ∧ mapOpen (sSlice 0 fnL) 1 = true ∧ mapOpen (sSlice 0 { fnL with tdisp := .run }) 1 = false ∧
      bindable last = false ∧ bindable (sSlice 0x80000200 (fnS2 1)) = true ∧ bindable (sSlice 0x80000000 (fnS2 1)) = false ∧
      bindable (sSlice 0x80010000 (fnS2 1)) = false ∧ mapSelOk (sSlice 0 (fnS2 1)) 1 = true ∧ mapSelOk (sSlice 0 (fnS2 2)) 1 = false ∧
      bit (tget (fnS2 0).map 0 (mapKey 0 0)) 31 = true ∧ bit (tget (fnS2 1).map 0 (mapKey 0 1)) 31 = false ∧
      may (sSlice 0 {}) = true ∧ may (sSlice 0 fnL) = false ∧ (1 ≠ 0 ∧ ((sSlice 0 fnL).func 1).enabled = true) ∧
      ((sSlice 0 fnL).func 1).tdisp = .unlocked ∧ bit ((sSlice 0 { fnL with csr := [(0x118, 0x80000000)] }).fcsr 1 0x118).toNat 31 = true ∧
      bit ((sSlice 0 fnL).fcsr 1 0x118).toNat 31 = false := by decide +kernel

/-- Requests to the Larder with no session, one that is not finished, one that is, and four; in and out of service; in each TDISP state. -/
theorem witness_larder :
    let mine := fun (done : Bool) (st : Tdisp) => sSlice 7 { fnL with tdisp := st, sessions := [{ id := 7, finished := done }] }
    let s := fun (n : Nat) (done : Bool) => sSlice 7 { fnL with sessions := (span 7 n).map (fun i => { id := i, finished := done }) }
    let session := fun (s : State) (x : Bool) => (s.func 1).sessions.any (fun z => z.id == reqValue s && z.finished == x)
    let may := fun (s : State) => reqFunc s != 0 && s.power == .service && inHostSession s && (s.func 1).enabled &&
      (s.func 1).tdisp == .unlocked && canRebind s 1
    larderAnswers (s 0 false) = true ∧ larderAnswers { s 0 false with power := .testing } = false ∧ (s 3 true).func 1 ≠ (s 4 true).func 1 ∧
      ((s 3 true).func 1).sessions.length < 4 ∧ 4 ≤ ((s 4 true).func 1).sessions.length ∧ session (s 1 false) false = true ∧
      session (s 1 true) true = true ∧ session (s 1 false) true = false ∧ session (s 1 true) false = false ∧ may (s 1 true) = true ∧
      may (mine true .locked) = false ∧ may (s 1 false) = false ∧ inHostSession (mine true .locked) = true ∧
      inHostSession (mine false .locked) = false ∧ ((mine true .locked).func 1).tdisp = .locked ∧
      ((mine true .unlocked).func 1).tdisp ≠ .locked ∧ larderAnswers { s 0 false with power := .safe, csr := [(0x011, 1)] } = false ∧ ((sSlice 0 { fnL with tdisp := .error }).func 1).tdisp = .error ∧
      (let u := { s 0 false with units := [(8192, { run := .running })], teams := [(15, team1)] }
       8192 / 8192 = reqFunc u ∧ (u.unit 8192).busy = true ∧ (u.team 0 15).f = reqFunc u ∧ (u.team 0 15).status ≠ .free ∧
       (u.team 0 15).endedProv = false) := by
  decide +kernel

/-- A body of an amendment: function 1, its sets as they are, and one row block of bank 0 that moves to the second of stack memory. -/
def amBody (func smcfg dest : Nat) : List Byte :=
  leBytes 4 func ++ leBytes 4 1 ++ leBytes 8 1 ++ leBytes 16 0 ++ leBytes 4 smcfg ++ leBytes 28 0 ++ leBytes 8 (dest * 2 ^ 41)
def fnA (a : Option Amend) : Func :=
  { fnS2 1 with tdisp := .run, amend := a, sessions := [{ id := 7, finished := true }, { id := 8, finished := true, tenant := true }] }
def sAmend (msg : List Byte) (a : Option Amend) (tenant : Bool := true) : State :=
  { sSlice 0 (fnA a) with request := some { f := 1, value := if tenant then 8 else 7, msg := msg, tenant := tenant } }

theorem witness_amend :
    let body := amBody 1 0x10001 1
    let a : Amend := { body := body, id := 9 }
    amRefusal (sAmend body none) 1 body = 0 ∧ amRefusal (sAmend (amBody 2 0x10001 1) none) 1 (amBody 2 0x10001 1) = 2 ∧
      amRecheck (sAmend [] (some a)) 1 body = 0 ∧ amRecheck (sAmend [] (some a)) 1 (amBody 1 0x10001 0) = 4 ∧
      ((sAmend [] (some a)).func 1).amend = some a ∧ ((sAmend [] none).func 1).amend = none ∧ a.active = false ∧ inTenantSession (sAmend [] (some a)) = true ∧
      inTenantSession (sAmend [] (some a) false) = false ∧ inHostSession (sAmend [] (some a) false) = true ∧
      inHostSession (sAmend [] (some a)) = false ∧ ({ a with active := true } : Amend).active = true ∧
      (imw (leBytes 4 8) 0 == a.id) = false := by
  decide +kernel

/-- The tenant's acceptance that names the id and the digest of what it accepts. -/
theorem witness_amend_accept :
    let body := amBody 1 0x10001 1
    let b := leBytes 4 9 ++ sha512 body
    (imw b 0 == 9 && b.drop 4 == sha512 body) = true := by
  have h : ∀ d : List Byte, imw (leBytes 4 9 ++ d) 0 = 9 := fun _ => rfl
  have k : ∀ d : List Byte, (leBytes 4 9 ++ d).drop 4 = d := fun _ => rfl
  simp only [h, k, beq_self_eq_true, Bool.and_self]

/-- The move of an active amendment at each of its stages, and one past the last. -/
theorem witness_migrate :
    let a := fun (st : Nat) => ({ body := amBody 1 0x10001 1, active := true, id := 9, stage := [(0, st)], moves := [(0, 0x80000, 0)], rowsLeft := [3, 5] } : Amend)
    let s := fun (n : Word) (st : Nat) => { sSlice n (fnA (some (a st))) with rowBlocks := bound0 ++ [(1, { owner := 1, bound := true, pgen := 1 })] }
    let st := fun (s : State) => (migTarget s 1 (bits (reqValue s) 15 0)).map (·.2.2.2.2)
    let on := { s 0 1 with request := some { f := 1, args := [8, 1] } }
    fwArg (s 0 1) 1 ≠ 1 ∧ fwArg on 1 = 1 ∧ migTarget on 1 0 = some (a 1, 0, 0x80000, 0, 1) ∧
      (migTarget { s 0 0 with funcs := [(1, { fnA (some (a 0)) with map := [] })] } 1 0).isSome = true ∧
      migTarget (s 1 0) 1 1 = none ∧ [0, 1, 2, 3].all (fun k => st (s 0 k) == some k) = true ∧ bit (tget ((s 0 0).func 1).map 0 0) 31 = true ∧
      ((a 3).active && (List.range (a 3).moves.length).all (fun k => tget (a 3).stage 0 k == 3)) = true ∧
      ((a 2).active && (List.range (a 2).moves.length).all (fun k => tget (a 2).stage 0 k == 3)) = false := by decide +kernel

/-- A throttle step, one that is none; host writes that reach memory and that do not; a store not yet acknowledged. -/
theorem witness_outside :
    let s := { sSlice 0 { fnL with csr := (0x0D0, 0x7000) :: fnL.csr } with domains := [(72, 4)] }
    let steps := fun (s : State) (d n : Nat) => (s.power == .service || s.power == .safe || s.power == .testing) && decide (d < 73) &&
      (n == 5 || (n == tget s.domains 0 d + 1 && decide (n ≤ 5)) || n + 1 == tget s.domains 0 d)
    let may := fun (f a : Nat) (bs : List Byte) => hostMay s f && !bs.isEmpty && agMay s f a bs.length
    let o : OutStore := { core := 3, team := 16, f := 1, host := false }
    steps s 72 5 = true ∧ steps s 72 3 = true ∧ steps s 72 2 = false ∧ steps s 73 5 = false ∧ may 1 (shared 0xFFFFFF) [7] = true ∧
      may 1 (shared 0xFFFFFF) [7, 7] = false ∧ may 2 (shared 0) [7] = false ∧
      tailsIn (homeWrite 0 ((span (shared 0xFFFFFF) 1).zip [7]) s) 1 (shared 0xFFFFFF) 1 = [] ∧ 0xFFFF < Config.stackBytes ∧ 72 ≠ 0 ∧
      s.outStores.find? (fun o => o.core == 3) = none ∧ errorsAt s 0 = [] ∧
      (let u := { s with outStores := [o], teams := [(16, team1)] }
       u.outStores.find? (fun o => o.core == 3) = some o ∧ o.team < 0x100000 ∧ (tget u.teams {} o.team).status ≠ .free) := by
  decide +kernel

/-- The host publishes the entry of each kind with a write of queue 0's TAIL; a line with one dirty byte. -/
theorem witness_outside_tail :
    let s := fun k => sQueue 0xFFFFFFFF k 1 0 2 0 []
    let wrote := fun k => homeWrite 0 ((span (shared 0) 4).zip (leBytes 4 0)) (s k)
    let w := fun k => agTouch (leadCore (wrote k) 1) (qHdr (wrote k) 1 0) 64 (wrote k)
    let published := fun (k n : Nat) => (nextEntry (w k) 1 0).any (fun x => x / 2 ^ 56 == n) && !agentRangeBad (w k) (entryAt (w k) 1 0) 8
    (hostMay (s 0) 1 && agMay (s 0) 1 (shared 0) 4) = true ∧ tailsIn (wrote 0) 1 (shared 0) 4 = [0] ∧
      agCause (wrote 0) 1 (qHdr (wrote 0) 1 0) 64 = none ∧ published 0 0 = true ∧ published 1 16 = true := by decide +kernel

theorem witness_eviction :
    let b : L1Byte := { val := 7, dirty := true, f := 1, team := 0 }
    let s := groupState 0 team1 (group1 {} []) { l1 := [(shared 5, some b), (shared 69, some b)] }
    MemoryOk s ∧ (hTarget (shared 5) = 1 ∧ hIsSpad (shared 5) = false ∧ b.dirty = true) ∧
      (s.core 0).l1.filter (fun x => x.1 / 64 == shared 5 / 64) = [(shared 5, some b)] :=
  ⟨memoryOk_of (by decide +kernel), by decide +kernel, by decide +kernel⟩

/-- An access by the partner of domain 63: to the last byte of the extent, past it, to a poisoned block, and over a link that is down. -/
theorem witness_remote :
    let fn := { fnS2 1 with csr := (0x43F, 0x8000001F) :: (fnS2 1).csr }
    let s := fun (up : Bool) (p : Tbl (List Nat)) => { sSlice 0 fn with linkUp := [(63, up)], poison := p, keySlots := [(1, some {})] }
    let counted := fun (s : State) => if tget s.linkUp false 63 then countFlits s else s
    let owner := fun (s : State) => if (counted s).power == .service && tget (counted s).linkUp false 63 then domainOwner (counted s) 63 31 else none
    let homes := fun (s : State) (a n : Nat) => (span a n).mapM (stackHome (counted s) 1)
    let fails := fun (s : State) (a : Nat) => (checkHomes ((homes s a 1).getD []) (counted s)).1
    owner (s false []) = none ∧ owner (s true []) = some 1 ∧ homes (s true []) 0x7FFFF 2 = none ∧ (homes (s true []) 0x7FFFF 1).isSome = true ∧
      fails (s true []) 0x7FFFF = none ∧ fails (s true [(0, [0x1FFF])]) 0x7FFFF = some cPoison ∧ aLr ≠ aStrl := by decide +kernel

/-! ## Premises met: decoding, steps, gates and invariants -/

theorem witness_round_trip :
    let i : Instr := .movl 63 0xFFFFFFFF
    let m : Nat → Micro := fun c => ⟨BitVec.ofNat 5 c, 0, 0, 0, false, 0, 0, 0, 0, 0, 0, 0, 0, 0, 0, false, 0⟩
    wellFormed i = true ∧ encode i ≠ [] ∧ (∀ m, i ≠ .next m ∧ i ≠ .loop m ∧ i ≠ .close m ∧ i ≠ .halt m ∧ i ≠ .waitbc m ∧ i ≠ .flag m) ∧
      (∀ w, i ≠ .unassignedEncoding w ∧ i ≠ .tgt w) ∧ [(0, 0), (1, 3), (2, 3), (3, 0), (4, 7), (5, 7)].all (fun k => microOk k.1 (m k.2)) = true ∧
      (encode (.loop (m 3))).length = 2 :=
  ⟨by decide +kernel, by decide +kernel, fun _ => ⟨nofun, nofun, nofun, nofun, nofun, nofun⟩, fun _ => ⟨nofun, nofun⟩, by decide +kernel,
    by decide +kernel⟩

/-- A step that is due; a gang whose turn it is; the next in the order of issue; a microword of a bank unit; the last word of slot 1. -/
theorem witness_step :
    let d : Due := { instr := .agentstop 0 }
    let s := { sGroup with who := none }
    let w : Who := .ctx (.group 0 0 0) 3
    let u := takeTurn w { s with waited := false, who := some w, request := none }
    let m := { s with groups := [], teams := [], units := [(8192, { run := .running })],
                      funcs := [(1, { fnS with csr := fnS.csr })], power := .service }
    pickDue { s with agenda := [d] } [d] = some (d, []) ∧ pickDue s s.agenda = none ∧ s.turn = none ∧
      ((issueOrder s).filter (whoRuns s)).head? = some w ∧ (mkEnv u).isSome = true ∧ (fetchWords u (envOf u)).toOption.isSome = true ∧
      (((fetchWords u (envOf u)).toOption.getD []).length ≠ 0) ∧
      (match (fetchWords u (envOf u)).toOption with
        | some ws => decodeWords ws == .ok .nop
        | none => false) = true ∧
      nextHas (exec (selectRow u (envOf u) .nop) u) (fun t => !t.waited) = true ∧
      (let x := { s with turn := some w, cores := [(0, { imem := [(0, 0xC4000001)] })],
                         groups := [(0, { group1 {} [] 0xFFFF 0x1000 with tokens := [(0, 1)] })] }
       let v := fun (x : State) => takeTurn w { x with turn := none, waited := false, who := some w, request := none }
       let decoded := fun (v : State) => (fetchWords v (envOf v)).toOption.map decodeWords
       pickDue x x.agenda = none ∧ decoded (v x) = some (.ok (.waitc 1)) ∧
         nextHas (exec (selectRow (v x) (envOf (v x)) (.waitc 1)) (v x)) (fun t => t.waited) = true ∧
         decoded (v { s with turn := some w }) = some (.ok .nop) ∧
         nextHas (exec (selectRow (v { s with turn := some w }) (envOf (v { s with turn := some w })) .nop) (v { s with turn := some w }))
           (fun t => !t.waited) = true) ∧
      ((issueOrder m).filter (whoRuns m)).head? = some (.unit 8192) ∧
      decodeMicroword (tget (m.unit 8192).store 0x6000000000000000 (m.unit 8192).pc) ≠ none ∧
      (envOf sGroup).isAgent = false ∧ (envOf sGroup).gang.pc.toNat < 0x40000 ∧ (envOf sGroup).gang.pc.toNat % 4 = 0 ∧
      (lslot (envOf sGroup).team (pcSlot (envOf sGroup).gang.pc)).st = .landed ∧ (envOf sGroup).core = (envOf sGroup).lower := by decide +kernel

/-- A gang at slot 3, which is not bound; a word with a reserved bit at the gang's PC; slots unbound, landing and failed. -/
theorem witness_fetch_traps :
    let at_ := fun (pc w : Word) => { groupState 0 { team1 with slots := [(1, { st := .landed }), (2, { st := .landing }),
        (4, { st := .failed, cause := cPageAbsent })] } (group1 {} [] 0xFFFF pc) { imem := [(2, w)] } with who := none }
    let w : Who := .ctx (.group 0 0 0) 3
    let u := fun (s : State) => takeTurn w { s with waited := false, who := some w, request := none }
    let fetched := fun (s : State) => fetchWords (u s) (envOf (u s))
    let slot := fun (s : State) => (lslot (envOf (u s)).team (pcSlot (envOf (u s)).gang.pc)).st
    ((issueOrder (at_ 0x3008 0)).filter (whoRuns (at_ 0x3008 0))).head? = some w ∧ (at_ 0x3008 0).turn = none ∧
      pickDue (at_ 0x3008 0) [] = none ∧ fetched (at_ 0x3008 0) = .error cSegAbsent ∧ cSegAbsent < 0x1F0 ∧ cSegAbsent ≠ cBreakpoint ∧
      slot (at_ 0x3008 0) = .unbound ∧ slot (at_ 0x2000 0) = .landing ∧ slot (at_ 0x4000 0) = .failed ∧ (0x1009 : Word).toNat % 4 ≠ 0 ∧
      (fetched (at_ 0x1008 1)).toOption.map List.head? = some (some 1) ∧
      (match (fetched (at_ 0x1008 1)).toOption.map decodeWords with
        | some (.error _) => true
        | _ => false) = true ∧ absentCause (envOf (u (at_ 0x1008 1))) (fM 1).toNat (minorOf 1) = none := by decide +kernel

/-- An issuer of every kind at the gates: the agent, team-scalar mode, a group, one of a W16 team, one of a stack core; a group with no
active lane and one that issues for a part; a partition of 8 registers; a source that is empty and one that is on its way. -/
theorem witness_gates :
    let w16 := groupState 0 { team1 with w16 := true } (group1 {} [])
    let stack := groupState 512 team1 (group1 {} [])
    let few := groupState 0 { team1 with regs := 8 } (group1 {} [])
    let part := groupState 0 team1 { group1 {} [] (lanes := 0xFF) with gangs := [{ id := 3, pc := 0x1008, lanes := 0xFF }] }
    let none_ := groupState 0 team1 (group1 { mr := 0x80 + 1024 } [])
    let v : RArgs := ⟨8, 1, 2, false, false, true⟩
    let ops := [srcS 1 true, srcS 2 false, dstS 3]
    let asks := fun (c : Ctx) => ops.any (fun o => (envOf (scalarState c)).ctx.pending o.sc o.reg)
    ((envOf sAgent).isAgent = true ∧ (mkEnv sAgent).isSome = true) ∧ ((envOf w16).profileL = true ∧ (envOf w16).isAgent = false) ∧
      (isStack (envOf stack).core = true ∧ (envOf stack).profileL = false ∧ (mkEnv stack).isSome = true) ∧
      (isStack (envOf sGroup).core = false ∧ (envOf sGroup).isAgent = false ∧ (envOf sGroup).profileL = false) ∧
      (8 ∈ rNamed v ∧ (envOf few).team.regs = 8) ∧ v.x = true ∧ ((rNamed v).all (fun k => decide (k < (envOf w16).team.regs)) = true) ∧
      (envOf sScalar).isScalar = true ∧ ((envOf part).isGroup = true ∧ (envOf part).gang.lanes ≠ (envOf part).group.live) ∧
      ((envOf none_).isGroup = true ∧ (envOf none_).active = []) ∧
      (asks { results := [{ seq := 1, scalar := true, regs := [2], writes := [] }] } = true ∧ asks {} = false ∧
        firstEmpty (envOf (scalarState { sEmpty := [1] })) ops = some true ∧ firstEmpty (envOf (scalarState { sEmpty := [2] })) ops = some false) := by
  decide +kernel

/-- A stalled gang; words of each class of form; registers that fit and operands that block. -/
theorem witness_gates_forms :
    let stalled := groupState 0 { team1 with prov := true } { group1 {} [] with
      gangs := [{ id := 3, pc := 0x1008, lanes := 0xFFFF, progress := { stall := true } }] }
    let one := fun (i : Instr) => contextForm i && wellFormed i && (encode i).length == 1
    ((mkEnv stalled).isSome = true ∧ (envOf stalled).stalled = true) ∧
      [Instr.saveg ⟨1, 2, 4⟩, .restg ⟨1, 2, 4⟩, .fail, .exit, .valuAdd ⟨1, 2, 3, false, false, true⟩, .modq ⟨2, false⟩, .copy ⟨1, 1, false⟩,
        .atomCas ⟨4, 5, 1, 0, 2⟩, .mmul ⟨4, 6, 8, false, false, false⟩, .div ⟨1, 2, 3, false, false, false⟩, .bkld ⟨1, 2, false, false⟩,
        .setw ⟨5, true, false, 2⟩, .fence 1 2].all one = true ∧
      (contextForm (.movl 7 5) && (encode (.movl 7 5)).length == 2) = true ∧ sGroup.request = none ∧
      namedRegs (.madw ⟨62, 3, 5, 60⟩) = [62, 63, 3, 5, 60, 61] ∧ legacyForm (.atomAdd ⟨2, 63, 2, 1, 2⟩) = true ∧
      Fits (envOf (sTyped 3)) (intType 3) 62 [.v 60 true] ∧
      (let e := envOf (groupState 0 team1 (group1 { mr := mrOf 3, vEmpty := [61] } []))
       firstEmpty e (typedOpnds e 62 [.v 60 true]) = some true ∧ firstEmpty e (typedOpnds e 62 [.v 60 false]) = some false) ∧
      (let e := envOf (groupState 0 team1 (group1 { results := [{ seq := 1, scalar := false, regs := [62], writes := [] }] } []))
       (typedOpnds e 62 [.v 60 true]).any (fun o => e.ctx.pending o.sc o.reg) = true) := by
  refine ⟨by decide +kernel, by decide +kernel, by decide +kernel, rfl, by decide +kernel, by decide +kernel, fits_of (by decide +kernel),
    by decide +kernel, by decide +kernel⟩

theorem witness_settles :
    Settled { sGroup with who := none } ∧ nextHas (step { sGroup with who := none }) (fun _ => true) = true ∧ mkEnv sGroup ≠ none ∧
      ({ sGroup with who := some (.unit 8192) } : State).who = some (.unit 8192) := by
  refine ⟨rfl, by decide +kernel, by decide +kernel, rfl⟩

def sSpawn0 : State := groupState 0 team1 (group1 {} []) { spad := [(0, 7)] }

/-- A group whose next instruction stands in instruction memory. -/
theorem witness_memory_kept :
    MemoryOk { sSpawn0 with who := none } ∧ nextHas (step { sSpawn0 with who := none }) (fun _ => true) = true ∧
      (sSpawn0.group 0 0 0).gangs.all (fun x => decide (x.id < (sSpawn0.group 0 0 0).nextGang)) = true :=
  ⟨memoryOk_of (by decide +kernel), by decide +kernel, by decide +kernel⟩

end Sys2Proof.Tests
end

section
/-! PROOF. What a typed vector instruction leaves when no lane of it can fail (R224 to R227), and integer elements as bit vectors
(R205). -/

namespace Sys2Proof.Machine

/-! ## Frames -/

/-- What an instruction leaves up to accounting may be named by any state that differs in accounting alone. -/
theorem Ran.of_keeps {e : Env} {n : Nat} {u v t : State} (h : Keeps u v) (hr : Ran e n v t) : Ran e n u t :=
  ⟨hr.pc, h.trans hr.rest⟩

/-- An instruction that raises no flag leaves EXC as it was (R37). -/
theorem keeps_orExc_zero (e : Env) (s : State) : Keeps s (orExc e 0 s) :=
  keeps_putCtx e _ s (fun c => by simp [word])

theorem putVs_gangs (e : Env) (ws : List (Nat × Nat × Word)) (s : State) (c sl k : Nat) :
    ((putVs e ws s).group c sl k).gangs = (s.group c sl k).gangs :=
  putGroup_gangs e _ (writeVs_gangs ws) s c sl k

/-! ## The gate of a vector instruction -/

/-- A major that every profile has, with all its minors (R22, R164). -/
theorem absentCause_of_common (e : Env) {major : Nat} (minor : Nat)
    (h : major ∉ absentL ++ absentS ++ [0x00, 0x07, 0x14, 0x18, 0x36]) : absentCause e major minor = none := by
  simp only [List.mem_append, List.mem_cons, List.not_mem_nil, or_false, not_or] at h
  obtain ⟨⟨hL, hS⟩, h0, h7, h14, h18, h36⟩ := h
  simp [absentCause, hL, hS, h0, h7, h14, h18, h36]

/-- A group's gang passes the gate of a vector instruction of its profile (R165). -/
theorem VecIssuer.gateTrap_eq_none {g : Gate} {s : State} {e : Env} (h : VecIssuer s e g.named)
    (hc : absentCause e g.major g.minor = none) (ha : g.agent = .no) (hl : g.legacy = false) : gateTrap g e = none := by
  obtain ⟨c, sl, k, hr⟩ : ∃ c sl k, e.ref = .group c sl k := by
    have hgroup := h.group
    cases hr : e.ref <;> simp_all [Env.isGroup]
  have hagent : e.isAgent = false := by simp [Env.isAgent, hr]
  have hscalar : e.isScalar = false := by simp [Env.isScalar, hr]
  have hrange : g.named.any (fun r => e.team.regs ≤ r) = false := by simpa using h.inRange
  simp [gateTrap, hc, ha, hl, hagent, hscalar, hrange]

/-! ## Lanes whose operation cannot fail -/

section lanes
variable {α : Type} (ls : List Nat) (val : Nat → α)

theorem laneError_map_ok : laneError (ls.map (fun l => (l, (.ok (val l, 0) : Res α)))) = none := by
  simp [laneError, List.filterMap_map]

theorem laneFlags_map_ok : laneFlags (ls.map (fun l => (l, (.ok (val l, 0) : Res α)))) = 0 := by
  induction ls with
  | nil => rfl
  | cons l ls ih => simpa [laneFlags] using ih

theorem laneWrites_map_ok (put : Nat → α → List (Nat × Nat × Word)) :
    laneWrites put (ls.map (fun l => (l, (.ok (val l, 0) : Res α)))) = ls.flatMap (fun l => put l (val l)) := by
  simp [laneWrites, List.flatMap_map]

theorem deliverLanes_map_ok (e : Env) (put : Nat → α → List (Nat × Nat × Word)) (s : State) :
    deliverLanes e put (ls.map (fun l => (l, .ok (val l, 0)))) s =
      .done 1 (orExc e 0 (putVs e (ls.flatMap (fun l => put l (val l))) s)) := by
  simp only [deliverLanes, laneError_map_ok, laneFlags_map_ok, laneWrites_map_ok]

theorem collect_map_ok : collect (ls.map (fun i => (.ok (val i, 0) : Res α))) = .ok (ls.map val, 0) := by
  induction ls with
  | nil => rfl
  | cons i ls ih => simp [collect, ih]

end lanes

/-- A typed vector instruction that fits and whose operands are free delivers its lanes' results. -/
theorem vecLanes_of_typed {accept : Nat → Bool} {d : Nat} {srcs : List VSrc} {e : Env}
    (ht : Typed e (accept (mrType e.ctx.mr)) d srcs) (hl : e.active.isEmpty = false)
    (f : Env → Nat → List (Nat × Res Nat)) (s : State) :
    vecLanes accept d srcs f e s =
      deliverLanes e (unitWrites (wideType (mrType e.ctx.mr)) d) (f e (mrType e.ctx.mr)) s := by
  have heven : (wideType (mrType e.ctx.mr) && (d % 2 != 0 || srcs.any (fun x => x.reg % 2 != 0))) = false := by
    cases hw : wideType (mrType e.ctx.mr)
    · rfl
    · obtain ⟨hd, hs⟩ := ht.even hw
      simpa [hd] using hs
  have hrange : (unitRegs (wideType (mrType e.ctx.mr)) d ++ srcs.flatMap (VSrc.vregs (wideType (mrType e.ctx.mr)))).any
      (fun r => e.team.regs ≤ r) = false :=
    List.any_eq_false.mpr (fun r hr => by simpa using ht.inRange r hr)
  simp only [vecLanes, vec, hl, ht.type, heven, hrange, Bool.not_true, Bool.false_eq_true, if_false]
  exact needs_free ht.free s _

/-- A vector instruction of lanes that cannot fail and raise no flag writes each active lane's value, and nothing else. -/
theorem vecTyped_runs {g : Gate} {accept : Nat → Bool} {d : Nat} {srcs : List VSrc}
    {f : Rounding → Nat → List Nat → Res Nat} {s : State} {e : Env} (hi : VecIssuer s e g.named) (hg : gateTrap g e = none)
    (ht : Typed e (accept (mrType e.ctx.mr)) d srcs) (val : Nat → Nat)
    (hf : ∀ l, f (roundingOf e.ctx.mr) (mrType e.ctx.mr) (srcs.map (VSrc.read e (wideType (mrType e.ctx.mr)) l)) = .ok (val l, 0)) :
    ∃ u, run g (vecTyped accept d srcs f) s = .next u ∧ Ran e 1 (lanesWritten e (wideType (mrType e.ctx.mr)) d val s) u := by
  have hbody : vecTyped accept d srcs f e s = .done 1 (orExc e 0 (lanesWritten e (wideType (mrType e.ctx.mr)) d val s)) := by
    rw [vecTyped, vecLanes_of_typed ht hi.lanes]
    simp only [hf]
    exact deliverLanes_map_ok e.active val e _ s
  obtain ⟨u, hrun, hran⟩ := ran_of_done hi.issues hg hbody
    (fun c sl k _ => (putCtx_gangs e _ _ c sl k).trans (putVs_gangs e _ s c sl k))
  exact ⟨u, hrun, hran.of_keeps (keeps_orExc_zero e _)⟩

/-! ## Elements of a unit (R205) -/

theorem elemsOf_getD (t x : Nat) {i : Nat} (hi : i < perUnit t) : (elemsOf t x).getD i 0 = (elem t x i).toNat := by
  simp [elemsOf, elem, hi, Nat.shiftRight_eq_div_pow]

theorem ofElems_map_range (t : Nat) (g : Nat → Nat) :
    ofElems t ((List.range (perUnit t)).map g) = unitOf t (fun i => BitVec.ofNat _ (g i)) := by
  have hidx : ((List.range (perUnit t)).map g).zipIdx = (List.range (perUnit t)).map (fun i => (g i, i)) :=
    List.ext_getElem (by simp) (by simp)
  simp [ofElems, unitOf, hidx, Function.comp_def]

/-- An element-wise operation that cannot fail gives the unit of its elements' results. -/
theorem elemInt_eq (f : Nat → List Nat → Nat) (k : Rounding) (t : Nat) (xs : List Nat) :
    elemInt f k t xs = .ok (unitOf t (fun i => BitVec.ofNat _ (f t (xs.map (fun x => (elem t x i).toNat)))), 0) := by
  have hops : (List.range (perUnit t)).map (fun i => (.ok (f t ((xs.map (elemsOf t)).map (fun x => x.getD i 0)), 0) : Res Nat)) =
      (List.range (perUnit t)).map (fun i => .ok (f t (xs.map (fun x => (elem t x i).toNat)), 0)) :=
    List.map_congr_left (fun i hi => by
      simp only [List.map_map, Function.comp_def, elemsOf_getD t _ (List.mem_range.mp hi)])
  simp only [elemInt, mapElems, hops, collect_map_ok, ofElems_map_range]

/-! ## Integers as bit vectors -/

theorem wrap_eq_toNat_ofInt (n : Nat) (x : Int) : wrap n x = (BitVec.ofInt n x).toNat := by
  rw [wrap, BitVec.toNat_ofInt]

theorem ofNat_wrap (n : Nat) (x : Int) : BitVec.ofNat n (wrap n x) = BitVec.ofInt n x := by
  rw [wrap_eq_toNat_ofInt, BitVec.ofNat_toNat, BitVec.setWidth_eq]

theorem signed_toNat {n : Nat} (x : BitVec n) : signed n x.toNat = x.toInt := by
  simp only [signed, BitVec.toInt_eq_toNat_cond, Nat.mod_eq_of_lt x.isLt]
  obtain _ | n := n
  · simp [BitVec.of_length_zero]
  · simp only [Nat.add_sub_cancel, Nat.pow_succ]
    split_ifs <;> omega

/-- The value of an element by its type's signedness. -/
theorem ival_toNat {t n : Nat} (hn : elemWidth t = n) (x : BitVec n) :
    ival t x.toNat = if signedType t then x.toInt else (x.toNat : Int) := by
  subst hn; simp only [ival, signed_toNat]

theorem readUnit_pair (g : Group) (r l : Nat) : g.readUnit true r l = (g.readV (r + 1) l ++ g.readV r l).toNat := by
  rw [BitVec.toNat_append, ← Nat.shiftLeft_add_eq_or_of_lt (g.readV r l).isLt, Nat.shiftLeft_eq, Nat.add_comm]
  rfl

/-- An element-wise integer instruction writes each active lane's unit of element results, and nothing else. -/
theorem elemInt_runs {g : Gate} {accept : Nat → Bool} {d : Nat} {srcs : List VSrc} {f : Nat → List Nat → Nat} {s : State}
    {e : Env} (hi : VecIssuer s e g.named) (hg : gateTrap g e = none) (ht : Typed e (accept (mrType e.ctx.mr)) d srcs)
    (val : Nat → Nat → BitVec (elemWidth (mrType e.ctx.mr)))
    (hval : ∀ l i, BitVec.ofNat _ (f (mrType e.ctx.mr) ((srcs.map (VSrc.read e (wideType (mrType e.ctx.mr)) l)).map
      (fun x => (elem (mrType e.ctx.mr) x i).toNat))) = val l i) :
    ∃ u, run g (vecTyped accept d srcs (elemInt f)) s = .next u ∧
      Ran e 1 (lanesWritten e (wideType (mrType e.ctx.mr)) d (fun l => unitOf (mrType e.ctx.mr) (val l)) s) u :=
  vecTyped_runs hi hg ht _ (fun l => by rw [elemInt_eq, funext (hval l)])

end Sys2Proof.Machine
end

section
/-! PROOF. VADDI, MAD, MADHI and MADW (R232, R233). -/

namespace Sys2Proof.Machine

/-- VADDI adds its sign-extended immediate to each element (R232). -/
theorem vaddi_runs {r : IArgs} {s : State} {e : Env} (hi : VecIssuer s e [r.d.toNat, r.a.toNat])
    (ht : Typed e (intType (mrType e.ctx.mr)) r.d.toNat [.v r.a.toNat false]) :
    let t := mrType e.ctx.mr
    ∃ u, exec (.vaddi r) s = .next u ∧
      Ran e 1 (lanesWritten e (wideType t) r.d.toNat (fun l => unitOf t (fun i =>
        elem t (e.group.readUnit (wideType t) r.a.toNat l) i + BitVec.ofInt _ r.imm.toInt)) s) u := by
  have hadd {n : Nat} (x : BitVec n) :
      BitVec.ofNat n (wrap n ((x.toNat : Int) + signed 14 r.imm.toNat)) = x + BitVec.ofInt n r.imm.toInt := by
    rw [ofNat_wrap, signed_toNat, BitVec.ofInt_add, BitVec.ofInt_natCast, BitVec.ofNat_toNat, BitVec.setWidth_eq]
  have hg := hi.gateTrap_eq_none (g := gVec 0x15 0 [r.d.toNat, r.a.toNat])
    (absentCause_of_common e (major := 0x15) 0 (by decide)) rfl rfl
  exact elemInt_runs (accept := okInt) hi hg ht _ (fun _ _ => hadd _)

/-- The gate of VIMAD lets a vector issuer of every profile through. -/
theorem gateTrap_gMad {minor : Nat} {named : List Nat} {s : State} {e : Env} (hi : VecIssuer s e named) :
    gateTrap (gMad minor named) e = none :=
  VecIssuer.gateTrap_eq_none (g := gMad minor named) hi (absentCause_of_common e (major := 0x1A) minor (by decide)) rfl rfl

/-- MAD keeps the low part of the product plus C (R233). -/
theorem mad_runs {r : QArgs} {s : State} {e : Env} (hi : VecIssuer s e (qNamed r))
    (ht : Typed e (intType (mrType e.ctx.mr)) r.d.toNat (qSrcs r)) :
    let t := mrType e.ctx.mr
    let el := fun (y : BitVec 6) (l i : Nat) => elem t (e.group.readUnit (wideType t) y.toNat l) i
    ∃ u, exec (.mad r) s = .next u ∧
      Ran e 1 (lanesWritten e (wideType t) r.d.toNat (fun l => unitOf t (fun i =>
        el r.a l i * el r.b l i + el r.c l i)) s) u := by
  have hmad {n : Nat} (x y z : BitVec n) : BitVec.ofNat n (x.toNat * y.toNat + z.toNat) = x * y + z := by
    simp [BitVec.ofNat_add, BitVec.ofNat_mul]
  exact elemInt_runs (accept := okInt) hi (gateTrap_gMad hi) ht _ (fun _ _ => hmad _ _ _)

/-- MADHI keeps the high part of the product, signed or unsigned by TYPE, plus C (R233). -/
theorem madhi_runs {r : QArgs} {s : State} {e : Env} (hi : VecIssuer s e (qNamed r))
    (ht : Typed e (mrType e.ctx.mr ≤ 3) r.d.toNat (qSrcs r)) :
    let t := mrType e.ctx.mr
    let n := elemWidth t
    let val := fun (x : BitVec n) => if signedType t then x.toInt else (x.toNat : Int)
    let el := fun (y : BitVec 6) (l i : Nat) => elem t (e.group.readUnit (wideType t) y.toNat l) i
    ∃ u, exec (.madhi r) s = .next u ∧
      Ran e 1 (lanesWritten e (wideType t) r.d.toNat (fun l => unitOf t (fun i =>
        BitVec.ofInt n (val (el r.a l i) * val (el r.b l i) / 2 ^ n) + el r.c l i)) s) u := by
  intro t n val el
  have hmadhi (x y z : BitVec n) :
      BitVec.ofNat n (wrap n (ival t x.toNat * ival t y.toNat / (2 ^ n : Nat) + (z.toNat : Int))) =
        BitVec.ofInt n (val x * val y / 2 ^ n) + z := by
    rw [ofNat_wrap, ival_toNat rfl, ival_toNat rfl, BitVec.ofInt_add, BitVec.ofInt_natCast, BitVec.ofNat_toNat,
      BitVec.setWidth_eq, Nat.cast_pow, Nat.cast_ofNat]
  exact elemInt_runs (accept := okWord) hi (gateTrap_gMad hi) ht _ (fun _ _ => hmadhi _ _ _)

/-- Under I32 and N32 an element is a word. -/
theorem elemWidth_of_le_one {t : Nat} (h : t ≤ 1) : elemWidth t = 32 := by
  interval_cases t <;> rfl

/-- MADW adds the pair C to the whole product of two words (R233). -/
theorem madw_runs {r : QArgs} {s : State} {e : Env}
    (hi : VecIssuer s e (qNamed r ++ [r.d.toNat + 1, r.c.toNat + 1])) (ht : mrType e.ctx.mr ≤ 1)
    (hf : Free e [srcV r.a.toNat, srcV r.b.toNat, srcV r.c.toNat, srcV (r.c.toNat + 1), dstV r.d.toNat, dstV (r.d.toNat + 1)]) :
    let val := fun (x : Word) => if signedType (mrType e.ctx.mr) then x.toInt else (x.toNat : Int)
    ∃ u, exec (.madw r) s = .next u ∧
      Ran e 1 (lanesWritten e true r.d.toNat (fun l =>
        (BitVec.ofInt 64 (val (e.group.readV r.a.toNat l) * val (e.group.readV r.b.toNat l)) +
          (e.group.readV (r.c.toNat + 1) l ++ e.group.readV r.c.toNat l)).toNat) s) u := by
  intro val
  have hmadw (x y : Word) (z : BitVec 64) :
      wrap 64 (ival (mrType e.ctx.mr) x.toNat * ival (mrType e.ctx.mr) y.toNat + (z.toNat : Int)) =
        (BitVec.ofInt 64 (val x * val y) + z).toNat := by
    rw [wrap_eq_toNat_ofInt, ival_toNat (elemWidth_of_le_one ht), ival_toNat (elemWidth_of_le_one ht), BitVec.ofInt_add,
      BitVec.ofInt_natCast, BitVec.ofNat_toNat, BitVec.setWidth_eq]
  have hok : okDiv (mrType e.ctx.mr) = true := by simpa [okDiv] using ht
  refine ran_of_done hi.issues (gateTrap_gMad hi) ?_ (fun c sl k _ => putVs_gangs e _ s c sl k)
  simp only [madwBody, vec, hi.lanes, hok, Bool.not_true, Bool.false_eq_true, if_false, readUnit_pair]
  rw [needs_free hf]
  simp only [hmadw, lanesWritten]

/-- Settles O7: each form runs its lanes' elements, whose value is that of the bit vectors. -/
theorem multiplyAdd : Obligations.MultiplyAdd := by
  unfold Obligations.MultiplyAdd
  intro x r s e
  refine ⟨rfl, vaddi_runs, ?_, madw_runs⟩
  simp only [List.forall_mem_cons, List.not_mem_nil, false_imp_iff, implies_true, and_true]
  exact fun hi => ⟨mad_runs hi, madhi_runs hi⟩

end Sys2Proof.Machine
end

section
/-! PROOF. What a trap leaves: the frame, the event of the agent and the context that stops (R388, R389, R398). -/

namespace Sys2Proof.Machine

/-! ## The issuer -/

/-- An issuer carries the register context its reference names. -/
theorem Issues.ctx_eq {s : State} {e : Env} (h : Issues s e) : s.ctx e.ref = e.ctx := by
  have henv := h.env
  simp only [mkEnv] at henv
  split at henv
  · cases henv; rfl
  · cases henv; rfl
  · split at henv <;> cases henv
    rfl
  · cases henv

theorem Issues.core_of_agent {s : State} {e : Env} {n : Nat} (h : Issues s e) (hr : e.ref = .agent n) : e.core = n := by
  have henv := h.env
  simp only [mkEnv] at henv
  split at henv
  · cases henv; cases hr; rfl
  · cases henv; cases hr
  · split at henv <;> cases henv
    cases hr
  · cases henv

theorem Env.isAgent_of_isGroup {e : Env} (h : e.isGroup = true) : e.isAgent = false := by
  cases hr : e.ref <;> simp_all [Env.isGroup, Env.isAgent]

theorem Env.isScalar_of_isGroup {e : Env} (h : e.isGroup = true) : e.isScalar = false := by
  cases hr : e.ref <;> simp_all [Env.isGroup, Env.isScalar]

theorem Env.isAgent_of_isScalar {e : Env} (h : e.isScalar = true) : e.isAgent = false := by
  cases hr : e.ref <;> simp_all [Env.isScalar, Env.isAgent]

/-! ## Stopping a context -/

theorem raiseEvent_frame (c n d k : Nat) (s : State) : ((raiseEvent c n s).core d).frame k = (s.core d).frame k := by
  simp only [raiseEvent, putCore, State.setCore_core]
  split
  · next h => rw [h]; rfl
  · rfl

theorem raiseEvent_events (c n : Nat) (hn : n < 32) (s : State) : ((raiseEvent c n s).core c).events.getLsbD n = true := by
  simp [raiseEvent, putCore, setBit, hn]

theorem raiseEvent_team (c n d sl : Nat) (s : State) : (raiseEvent c n s).team d sl = s.team d sl := rfl

theorem raiseEvent_group (c n d sl g : Nat) (s : State) : (raiseEvent c n s).group d sl g = s.group d sl g := rfl

theorem sendIrq_core (f v c : Nat) (s : State) : (sendIrq f v s).core c = s.core c := by
  simp only [sendIrq]
  split
  · rfl
  · split <;> rfl

theorem setFrame_frame (c n : Nat) (f : Frame) (s : State) : ((setFrame c n f s).core c).frame n = f := by
  simp only [setFrame, putCore, State.setCore_core_self, Core.frame, tget_tput_self]

section stopped
variable (e : Env) (cause lane addr : Nat) (tpc rpc : Word) (s : State)

theorem stopCtx_frame :
    let f := ((stopCtx e cause lane addr tpc rpc s).core e.core).frame e.ctxNo
    f.new = true ∧ f.cause = cause ∧ f.lane = lane ∧ f.addr = (if 0x080 ≤ cause ∧ cause ≤ 0x0BF then addr else 0) ∧
      f.tpc = tpc ∧ f.rpc = rpc ∧ f.gang = e.gang.lanes ∧ f.record = e.team.record ∧ f.teamx = e.team.idx := by
  have htold (u : State) :
      ((if e.isAgent || e.core == e.lower then u else raiseEvent e.lower 0 u).core e.core).frame e.ctxNo =
        (u.core e.core).frame e.ctxNo := by
    split
    · rfl
    · exact raiseEvent_frame ..
  have hput (fT : Team → Team) (fG : Group → Group) (u : State) :
      ((if e.isScalar then putTeam e fT u else putGroup e fG u).core e.core).frame e.ctxNo =
        (u.core e.core).frame e.ctxNo := by
    split <;> rfl
  intro f
  have hf : f = _ := (raiseEvent_frame ..).trans ((htold _).trans ((hput ..).trans (setFrame_frame ..)))
  rw [hf]
  refine ⟨rfl, rfl, rfl, ?_, rfl, rfl, rfl, rfl, rfl⟩
  simp only [Bool.and_eq_true, decide_eq_true_eq]

theorem stopCtx_event : ((stopCtx e cause lane addr tpc rpc s).core e.core).events.getLsbD 0 = true :=
  raiseEvent_events _ 0 (by decide) _

theorem stopCtx_team (h : e.isScalar = true) : ((stopCtx e cause lane addr tpc rpc s).team e.lower e.slot).stopped = true := by
  have htold (u : State) (c sl : Nat) :
      (if e.isAgent || e.core == e.lower then u else raiseEvent e.lower 0 u).team c sl = u.team c sl := by
    split <;> rfl
  simp only [stopCtx, raiseEvent_team, htold, h, if_true, putTeam, State.setTeam_team_self]

theorem stopCtx_group (h : e.isScalar = false) :
    ((stopCtx e cause lane addr tpc rpc s).group e.lower e.slot e.gi).stopped = true := by
  have htold (u : State) (c sl g : Nat) :
      (if e.isAgent || e.core == e.lower then u else raiseEvent e.lower 0 u).group c sl g = u.group c sl g := by
    split <;> rfl
  simp only [stopCtx, raiseEvent_group, htold, h, Bool.false_eq_true, if_false, putGroup, State.setGroup_group_self]

/-- A trap outside the agent slot stops the context; what the firmware does then is due (R388, R395). -/
theorem takeTrap_of_context (h : e.isAgent = false) :
    ∃ ds, takeTrap e cause lane addr tpc rpc s = (stopCtx e cause lane addr tpc rpc s).due ds := by
  cases hr : e.ref with
  | agent n => simp [Env.isAgent, hr] at h
  | scalar c sl => simp only [takeTrap, hr]; exact ⟨_, rfl⟩
  | group c sl g => simp only [takeTrap, hr]; exact ⟨_, rfl⟩

/-- A trap in the agent slot stops the agent (R398). -/
theorem takeTrap_of_agent {n : Nat} (hr : e.ref = .agent n) :
    ((takeTrap e cause lane addr tpc rpc s).core n).agentStopped = true := by
  simp only [takeTrap, hr, sendIrq_core]
  exact congrArg Core.agentStopped (State.setCore_core_self s n _)

/-- Taking a trap at the issuer's PC stops its context, reports it, and keeps everything else (R388, R389, R398). -/
theorem takeTrap_traps (hagent : ∀ n, e.ref = .agent n → e.core = n) :
    Traps e cause lane addr rpc s (takeTrap e cause lane addr e.gang.pc rpc s) where
  frame ha := by
    obtain ⟨ds, hds⟩ := takeTrap_of_context e cause lane addr e.gang.pc rpc s ha
    rw [hds]
    exact stopCtx_frame ..
  event ha := by
    obtain ⟨ds, hds⟩ := takeTrap_of_context e cause lane addr e.gang.pc rpc s ha
    rw [hds]
    exact stopCtx_event ..
  scalar hs := by
    obtain ⟨ds, hds⟩ := takeTrap_of_context e cause lane addr e.gang.pc rpc s (Env.isAgent_of_isScalar hs)
    rw [hds]
    exact stopCtx_team _ _ _ _ _ _ _ hs
  group hg := by
    obtain ⟨ds, hds⟩ := takeTrap_of_context e cause lane addr e.gang.pc rpc s (Env.isAgent_of_isGroup hg)
    rw [hds]
    exact stopCtx_group _ _ _ _ _ _ _ (Env.isScalar_of_isGroup hg)
  agent ha := by
    cases hr : e.ref with
    | agent n => rw [hagent n hr]; exact takeTrap_of_agent e cause lane addr e.gang.pc rpc s hr
    | scalar c sl => simp [Env.isAgent, hr] at ha
    | group c sl g => simp [Env.isAgent, hr] at ha
  rest := keeps_takeTrap ..

end stopped

/-- A trap taken after accounting is a trap of the state before it. -/
theorem Traps.of_keeps {e : Env} {cause lane addr : Nat} {rpc : Word} {s u t : State} (h : Keeps s u)
    (ht : Traps e cause lane addr rpc u t) : Traps e cause lane addr rpc s t :=
  { ht with rest := h.trans ht.rest }

/-- An instruction whose own work ends in a trap, BKPT and TRAP aside, stops its context at its own PC (R388). -/
theorem traps_of_trap {g : Gate} {body : Env → State → Eff} {s u : State} {e : Env} {c a : Nat} {l : Option Nat}
    (h : Issues s e) (hg : gateTrap g e = none) (hb : body e s = .trap c l a u) (hc : c < cBreakpoint) :
    ∃ t, run g body s = .next t ∧ Traps e c (l.getD e.reportLane) a e.gang.pc u t := by
  have hrpc : (if c == cBreakpoint || 0x1F0 ≤ c then nextPc e 1 else e.gang.pc) = e.gang.pc := by
    have hc' : c < 0x1E0 := hc
    simp [cBreakpoint]; omega
  have ht := (takeTrap_traps e c (l.getD e.reportLane) a e.gang.pc (putProgress e {} (issued e (gateCost g e) u))
    (fun n hr => h.core_of_agent hr)).of_keeps ((keeps_issued e (gateCost g e) u).trans (keeps_putProgress e {} _))
  refine ⟨_, run_of_gate h hg, ?_⟩
  simp only [hb, settle, hrpc]
  exact ⟨ht.frame, ht.event, ht.scalar, ht.group, ht.agent, ht.rest.trans (keeps_who _)⟩

end Sys2Proof.Machine
end

section
/-! PROOF. MOVX: the moves between lanes, scalars, predicates and special registers, and the check of MR (R258 to R260, R160,
R38). -/

namespace Sys2Proof.Machine

/-! ## Fields -/

theorem bits_toNat (w : Word) (hi lo : Nat) : bits w.toNat hi lo = (w.extractLsb' lo (hi - lo + 1)).toNat := by
  rw [bits, BitVec.extractLsb'_toNat]

/-- The bits that EXC reserves are clear in the values below 16 (R37). -/
theorem bits_31_4_ne_zero (w : Word) : (bits w.toNat 31 4 != 0) = decide (16 ≤ w.toNat) := by
  have := w.isLt
  rw [Bool.eq_iff_iff, bne_iff_ne, decide_eq_true_eq, bits, Nat.shiftRight_eq_div_pow]
  omega

/-- The major and the minor of a word are its eleven upper bits (R142). -/
theorem fM_eq (w : Word) : fM w = (w.extractLsb' 21 11).extractLsb' 5 6 := by
  refine BitVec.eq_of_toNat_eq ?_
  simp only [fM, BitVec.extractLsb'_toNat, Nat.shiftRight_eq_div_pow]
  omega

theorem fF_eq (w : Word) : fF w = (w.extractLsb' 21 11).extractLsb' 0 5 := by
  refine BitVec.eq_of_toNat_eq ?_
  simp only [fF, BitVec.extractLsb'_toNat, Nat.shiftRight_eq_div_pow]
  omega

theorem decodeWords_of_error {w : Word} {x : DecodeError} (h : decodeFields w [] = .error x) : decodeWords [w] = .error x := by
  simp only [decodeWords, h]

/-! ## The reserved fields of P2V and V2P (R260) -/

theorem decodeFields_movx {w : Word} (h : fM w = 33) : decodeFields w [] = decodeMovx w := by
  simp [decodeFields, h]

theorem decodeWords_p2v_reserved {w : Word} (hop : w.extractLsb' 21 11 = 0x424) (hres : w.extractLsb' 0 15 ≠ 0) :
    decodeWords [w] = .error .reservedField := by
  have hfields : (fA w == 0 && fB w == 0 && !fQA w && !fQB w && !fX w) = false := by
    by_contra hzero
    simp only [Bool.not_eq_false, Bool.and_eq_true, beq_iff_eq, Bool.not_eq_true', fA, fB, fQA, fQB, fX, BitVec.toNat_eq,
      BitVec.extractLsb'_toNat, Nat.shiftRight_eq_div_pow, beq_eq_false_iff_ne] at hzero
    refine hres (BitVec.eq_of_toNat_eq ?_)
    rw [BitVec.extractLsb'_toNat, Nat.shiftRight_eq_div_pow]
    simp only [BitVec.ofNat_eq_ofNat, BitVec.toNat_ofNat, Nat.zero_mod] at hzero ⊢
    omega
  refine decodeWords_of_error ?_
  rw [decodeFields_movx (by rw [fM_eq, hop]; rfl)]
  simp only [decodeMovx, fF_eq, hop]
  exact congrArg (reservedUnless · _) hfields

theorem decodeWords_v2p_reserved {w : Word} (hop : w.extractLsb' 21 11 = 0x425)
    (hres : w.extractLsb' 15 6 ≠ 0 ∨ w.extractLsb' 3 6 ≠ 0 ∨ w.extractLsb' 0 2 ≠ 0) :
    decodeWords [w] = .error .reservedField := by
  have hfields : (fD w == 0 && fB w == 0 && !fQB w && !fX w) = false := by
    by_contra hzero
    simp only [Bool.not_eq_false, Bool.and_eq_true, beq_iff_eq, Bool.not_eq_true', fQB, fX, beq_eq_false_iff_ne] at hzero
    obtain ⟨⟨⟨hd, hb⟩, hqb⟩, hx⟩ := hzero
    refine hres.elim (fun h => h hd) (fun h => h.elim (fun h => h hb) (fun h => h (BitVec.eq_of_toNat_eq ?_)))
    rw [BitVec.extractLsb'_toNat, Nat.shiftRight_zero]
    simp only [BitVec.ofNat_eq_ofNat, BitVec.toNat_ofNat, Nat.zero_mod]
    omega
  refine decodeWords_of_error ?_
  rw [decodeFields_movx (by rw [fM_eq, hop]; rfl)]
  simp only [decodeMovx, fF_eq, hop]
  exact congrArg (reservedUnless · _) hfields

/-! ## The check of MR (R160) -/

theorem mrCause_lt {x c : Nat} (h : mrCause x = some c) : c < cBreakpoint := by
  simp only [mrCause] at h
  split_ifs at h <;> cases h <;> decide

theorem mrCause_of_reserved {v : Word} (h : v.extractLsb' 14 18 ≠ 0) : mrCause v.toNat = some cReserved := by
  have hbits : bits v.toNat 31 14 ≠ 0 := fun h0 => h (BitVec.eq_of_toNat_eq ((bits_toNat v 31 14).symm.trans h0))
  simp [mrCause, hbits]

theorem mrCause_of_badMode {v : Word} (h0 : v.extractLsb' 14 18 = 0)
    (h : v.extractLsb' 0 4 = 15 ∨ 5 ≤ (v.extractLsb' 4 3).toNat) : mrCause v.toNat = some cBadMode := by
  have hbits : bits v.toNat 31 14 = 0 := by rw [bits_toNat, h0]; rfl
  have hmode : bits v.toNat 3 0 = 15 ∨ 5 ≤ bits v.toNat 6 4 := by
    rw [bits_toNat, bits_toNat]
    exact h.imp_left (congrArg BitVec.toNat)
  simp [mrCause, hbits, hmode]

/-- What traps with the cause of R160 for a value refuses it as R160 says. -/
theorem mrRefused_of_mrCause {P : Nat → Prop} {v : Word} (h : ∀ c, mrCause v.toNat = some c → P c) :
    (v.extractLsb' 14 18 ≠ 0 → P cReserved) ∧
      (v.extractLsb' 14 18 = 0 → v.extractLsb' 0 4 = 15 ∨ 5 ≤ (v.extractLsb' 4 3).toNat → P cBadMode) :=
  ⟨fun h0 => h _ (mrCause_of_reserved h0), fun h0 hm => h _ (mrCause_of_badMode h0 hm)⟩

/-! ## The gate of MOVX -/

theorem absentCause_movx (e : Env) (minor : Nat) : absentCause e 0x21 minor = none :=
  absentCause_of_common e minor (by decide)

/-- Outside a W16 team and team-scalar mode, a word that every profile has passes the gate where its context may execute it and
its registers lie in the partition (R165). -/
theorem gateTrap_eq_none_of_reached {g : Gate} {e : Env} (hc : absentCause e g.major g.minor = none)
    (ha : g.agent = .yes ∨ g.agent = .no ∧ e.isAgent = false) (hn : ∀ r ∈ g.named, r < e.team.regs)
    (hl : e.profileL = false) (hs : e.isScalar = false) : gateTrap g e = none := by
  have hrange : g.named.any (fun r => e.team.regs ≤ r) = false := by simpa using hn
  obtain ha | ⟨ha, hagent⟩ := ha
  · simp [gateTrap, hc, ha, hrange, hl, hs]
  · simp [gateTrap, hc, ha, hagent, hrange, hl, hs]

/-- A vector instruction with an active lane does its own work (R8). -/
theorem vec_of_active {body : Env → State → Eff} {e : Env} (h : e.active.isEmpty = false) (s : State) :
    vec body e s = body e s := by
  simp only [vec, h, Bool.false_eq_true, if_false]

/-! ## V2S and S2V (R258) -/

theorem v2sLane_of_allOnes {w : Word} (e : Env) (h : w = BitVec.allOnes 32) : v2sLane e w.toNat = .ok e.active.head? := by
  subst h
  simp [v2sLane]

theorem toNat_ne_of_ne_allOnes {w : Word} (h : w ≠ BitVec.allOnes 32) : w.toNat ≠ 0xFFFFFFFF :=
  fun hw => h (BitVec.eq_of_toNat_eq hw)

theorem v2sLane_of_present {w : Word} {e : Env} (h : w ≠ BitVec.allOnes 32) (hlt : w.toNat < e.g)
    (hp : e.group.present.getLsbD w.toNat = true) : v2sLane e w.toNat = .ok (some w.toNat) := by
  rw [v2sLane, if_neg (toNat_ne_of_ne_allOnes h), if_neg (by simp [hlt, hp])]

theorem v2sLane_of_absent {w : Word} {e : Env} (h : w ≠ BitVec.allOnes 32)
    (hout : e.g ≤ w.toNat ∨ e.group.present.getLsbD w.toNat = false) : v2sLane e w.toNat = .error cLaneRange := by
  rw [v2sLane, if_neg (toNat_ne_of_ne_allOnes h), if_pos (by simpa using hout)]

section v2s
variable {r : SArgs} {s : State} {e : Env} (h : Issues s e) (hg : e.isGroup = true) (hl : e.profileL = false)
  (hr : r.a.toNat < e.team.regs) (hf : Free e [srcV r.a.toNat r.qa, srcS r.b.toNat r.qb, dstS r.d.toNat])

include hg hl hr in
theorem gateTrap_v2s : gateTrap { major := 0x21, minor := 0, named := [r.a.toNat], legacy := true } e = none :=
  gateTrap_eq_none_of_reached (absentCause_movx e 0) (.inr ⟨rfl, e.isAgent_of_isGroup hg⟩) (by simpa using hr) hl
    (e.isScalar_of_isGroup hg)

include h hg hl hr hf

/-- V2S copies the lane its index names. -/
theorem v2s_runs {j : Nat} (hj : v2sLane e ((s.ctx e.ref).readS r.b.toNat).toNat = .ok (some j)) :
    ∃ t, exec (.v2s r) s = .next t ∧ Ran e 1 (putS e r.d.toNat (e.group.readV r.a.toNat j) s) t := by
  rw [h.ctx_eq] at hj
  refine ran_of_done h (gateTrap_v2s hg hl hr) ?_ (fun c sl k _ => putCtx_gangs e (fun c => c.writeS _ _) s c sl k)
  rw [v2sBody, needs_free hf, hj]

/-- V2S with the index all ones and no active lane does nothing. -/
theorem v2s_runs_none (hj : v2sLane e ((s.ctx e.ref).readS r.b.toNat).toNat = .ok none) :
    ∃ t, exec (.v2s r) s = .next t ∧ Ran e 1 s t := by
  rw [h.ctx_eq] at hj
  refine ran_of_done h (gateTrap_v2s hg hl hr) ?_ (fun _ _ _ _ => rfl)
  rw [v2sBody, needs_free hf, hj]

theorem v2s_traps (hj : v2sLane e ((s.ctx e.ref).readS r.b.toNat).toNat = .error cLaneRange) :
    ∃ t, exec (.v2s r) s = .next t ∧ Traps e cLaneRange e.reportLane 0 e.gang.pc s t := by
  rw [h.ctx_eq] at hj
  refine traps_of_trap (l := none) h (gateTrap_v2s hg hl hr) ?_ (by decide)
  rw [v2sBody, needs_free hf, hj]

end v2s

/-- A write of one register of each active lane. -/
theorem lanesWritten_word (e : Env) (d : Nat) (val : Nat → Nat) (s : State) :
    lanesWritten e false d val s = putVs e (e.active.map (fun l => (d, l, word (val l)))) s := by
  simp only [lanesWritten, unitWrites, Bool.false_eq_true, if_false, List.map_eq_flatMap]

theorem s2v_runs {r : UArgs} {s : State} {e : Env} (hi : VecIssuer s e [r.d.toNat]) (hl : e.profileL = false)
    (hf : Free e [srcS r.a.toNat r.qa, dstV r.d.toNat]) :
    ∃ t, exec (.s2v r) s = .next t ∧
      Ran e 1 (lanesWritten e false r.d.toNat (fun _ => ((s.ctx e.ref).readS r.a.toNat).toNat) s) t := by
  have hgate : gateTrap { gVec 0x21 1 [r.d.toNat] with legacy := true } e = none :=
    gateTrap_eq_none_of_reached (absentCause_movx e 1) (.inr ⟨rfl, e.isAgent_of_isGroup hi.group⟩) hi.inRange hl
      (e.isScalar_of_isGroup hi.group)
  rw [lanesWritten_word, hi.issues.ctx_eq]
  refine ran_of_done hi.issues hgate ?_ (fun c sl k _ => putVs_gangs e _ s c sl k)
  simp only [s2vBody, vec_of_active hi.lanes, needs_free hf, word, BitVec.ofNat_toNat, BitVec.setWidth_eq]

/-! ## Special registers (R259, R38) -/

theorem gateTrap_movx {minor : Nat} {named : List Nat} {s : State} {e : Env} (hi : VecIssuer s e named) :
    gateTrap (gVec 0x21 minor named) e = none :=
  VecIssuer.gateTrap_eq_none (g := gVec 0x21 minor named) hi (absentCause_movx e minor) rfl rfl

/-- SRD gives each active lane its special register; a read of RESL clears it. -/
theorem srd_runs {d n : BitVec 6} {s : State} {e : Env} (hi : VecIssuer s e (unitRegs (n.toNat = 16 ∨ n.toNat = 17) d.toNat))
    (hn : n.toNat ≠ 13) (hf : Free e ((unitRegs (n.toNat = 16 ∨ n.toNat = 17) d.toNat).map dstV)) :
    ∃ t, exec (.srd d n) s = .next t ∧
      Ran e 1 (lanesWritten e (n.toNat = 16 ∨ n.toNat = 17) d.toNat (specialReg e n.toNat)
        (if n.toNat = 11 ∧ e.team.w16 = false then putGroup e (fun g => { g with resl := 0 }) s else s)) t := by
  simp only [Bool.decide_or] at hi hf ⊢
  refine ran_of_done hi.issues (gateTrap_movx hi) ?_ (fun c sl k _ => ?_)
  · simp only [srdBody, vec_of_active hi.lanes, needs_free hf, hn, if_false, lanesWritten, Bool.and_eq_true,
      decide_eq_true_eq, Bool.not_eq_true']
  · rw [lanesWritten, putVs_gangs]
    split
    · exact putGroup_gangs e (fun g => { g with resl := 0 }) (fun _ => rfl) s c sl k
    · rfl

/-- A read of the clock (R38): the count goes on by a free number, and its high half is latched. -/
theorem readClock_eq (e : Env) (s : State) :
    let k := (s.core e.core).clk + (Config.freeWord s.free).toNat
    readClock e s = (k % 2 ^ 32, putCtx e (fun c => { c with clk := hiWord k })
      (putCore e.core (fun c => { c with clk := k }) { s with free := s.free + 1 })) := by
  intro k
  have hclk : ((putCore e.core (fun c => { c with clk := c.clk + (Config.freeWord s.free).toNat })
      { s with free := s.free + 1 }).core e.core).clk = k := congrArg Core.clk (State.setCore_core_self ..)
  simp only [readClock, State.drawWord, hclk]
  rfl

theorem hiWord_eq (k : Nat) : hiWord k = BitVec.ofNat 32 (k / 2 ^ 32) := by
  rw [hiWord, word, Nat.shiftRight_eq_div_pow]

/-- The registers of a group are no part of a core. -/
theorem putVs_putCtx_putCore {e : Env} (hg : e.isGroup = true) (ws : List (Nat × Nat × Word)) (f : Ctx → Ctx) (c : Nat)
    (x : Core → Core) (s : State) : putVs e ws (putCtx e f (putCore c x s)) = putCore c x (putVs e ws (putCtx e f s)) := by
  cases hr : e.ref with
  | agent n => simp [Env.isGroup, hr] at hg
  | scalar m sl => simp [Env.isGroup, hr] at hg
  | group m sl g => simp only [putCtx, hr, State.setCtx]; rfl

/-- The clock of a core is the business of accounting. -/
theorem keeps_clk (c k : Nat) (s : State) : Keeps s (putCore c (fun x => { x with clk := k }) s) :=
  keeps_putCore c (fun x => { x with clk := k }) s (fun _ => rfl)

section clock
variable {d n : BitVec 6} {s : State} {e : Env} (hi : VecIssuer s e [d.toNat]) (hn : n.toNat = 13) (hf : Free e [dstV d.toNat])
include hi hn hf

theorem srdBody_clock :
    let k := (s.core e.core).clk + (Config.freeWord s.free).toNat
    srdBody d n e s = .done 1 (putCore e.core (fun c => { c with clk := k })
      (lanesWritten e false d.toNat (fun _ => k % 2 ^ 32)
        (putCtx e (fun c => { c with clk := BitVec.ofNat 32 (k / 2 ^ 32) }) { s with free := s.free + 1 }))) := by
  have hfree : Free e ((unitRegs (n.toNat = 16 || n.toNat = 17) d.toNat).map dstV) := by rw [hn]; exact hf
  simp only [srdBody, vec_of_active hi.lanes, needs_free hfree]
  simp only [hn, if_true, readClock_eq, putVs_putCtx_putCore hi.group, lanesWritten_word, hiWord_eq]

/-- SRD of CLKLO answers the low half of a count and latches the high half (R38). -/
theorem srd_clock_runs :
    ∃ t k, exec (.srd d n) s = .next t ∧ (s.core e.core).clk ≤ k ∧
      Ran e 1 (lanesWritten e false d.toNat (fun _ => k % 2 ^ 32)
        (putCtx e (fun c => { c with clk := BitVec.ofNat 32 (k / 2 ^ 32) }) { s with free := s.free + 1 })) t := by
  have hgate : gateTrap (gVec 0x21 2 (unitRegs (n.toNat = 16 || n.toNat = 17) d.toNat)) e = none :=
    gateTrap_movx (by rw [hn]; exact hi)
  obtain ⟨t, hrun, hran⟩ := ran_of_done hi.issues hgate (srdBody_clock hi hn hf) (fun c sl g _ =>
    (putVs_gangs e _ _ c sl g).trans (putCtx_gangs e _ _ c sl g))
  exact ⟨t, _, hrun, Nat.le_add_right _ _, hran.of_keeps (keeps_clk _ _ _)⟩

end clock

section swr
variable {n : BitVec 6} {x : SrcArgs} {s : State} {e : Env} (hi : VecIssuer s e [x.a.toNat])
  (hf : Free e [srcV x.a.toNat x.qa])
include hi hf

theorem swr_mr_traps {c : Nat} (hn : n.toNat = 12)
    (hc : mrCause (e.group.readV x.a.toNat (e.active.headD 0)).toNat = some c) :
    ∃ t, exec (.swr n x) s = .next t ∧ Traps e c e.reportLane 0 e.gang.pc s t := by
  refine traps_of_trap (l := none) hi.issues (gateTrap_movx hi) ?_ (mrCause_lt hc)
  simp only [swrBody, vec_of_active hi.lanes, needs_free hf, hn, if_true, hc]

theorem swr_mr_runs (hn : n.toNat = 12) (hc : mrCause (e.group.readV x.a.toNat (e.active.headD 0)).toNat = none) :
    ∃ t, exec (.swr n x) s = .next t ∧
      Ran e 1 (putCtx e (fun c => { c with mr := e.group.readV x.a.toNat (e.active.headD 0) }) s) t := by
  refine ran_of_done hi.issues (gateTrap_movx hi) ?_ (fun c sl k _ => putCtx_gangs e _ s c sl k)
  simp only [swrBody, vec_of_active hi.lanes, needs_free hf, hn, if_true, hc]

theorem swr_exc_traps (hn : n.toNat = 15) (hv : 16 ≤ (e.group.readV x.a.toNat (e.active.headD 0)).toNat) :
    ∃ t, exec (.swr n x) s = .next t ∧ Traps e cReserved e.reportLane 0 e.gang.pc s t := by
  refine traps_of_trap (l := none) hi.issues (gateTrap_movx hi) ?_ (by decide)
  simp only [swrBody, vec_of_active hi.lanes, needs_free hf, hn, bits_31_4_ne_zero, decide_eq_true_eq,
    Nat.reduceEqDiff, if_true, if_false, hv]

theorem swr_exc_runs (hn : n.toNat = 15) (hv : (e.group.readV x.a.toNat (e.active.headD 0)).toNat < 16) :
    ∃ t, exec (.swr n x) s = .next t ∧
      Ran e 1 (putCtx e (fun c => { c with exc := e.group.readV x.a.toNat (e.active.headD 0) }) s) t := by
  refine ran_of_done hi.issues (gateTrap_movx hi) ?_ (fun c sl k _ => putCtx_gangs e _ s c sl k)
  simp only [swrBody, vec_of_active hi.lanes, needs_free hf, hn, bits_31_4_ne_zero, decide_eq_true_eq,
    Nat.reduceEqDiff, if_true, if_false, Nat.not_le.mpr hv]

/-- SWR of a register that is only read traps (R259). -/
theorem swr_priv_traps (hmr : n.toNat ≠ 12) (hexc : n.toNat ≠ 15) :
    ∃ t, exec (.swr n x) s = .next t ∧ Traps e cPriv e.reportLane 0 e.gang.pc s t := by
  refine traps_of_trap (l := none) hi.issues (gateTrap_movx hi) ?_ (by decide)
  simp only [swrBody, vec_of_active hi.lanes, needs_free hf, hmr, hexc, if_false]

end swr

/-! ## P2V, V2P, MRS and MRW (R260, R160) -/

theorem v2p_runs {x : SrcArgs} {s : State} {e : Env} (hi : VecIssuer s e [x.a.toNat]) (hf : Free e [srcV x.a.toNat x.qa]) :
    ∃ t, exec (.v2p x) s = .next t ∧
      Ran e 1 (putPs e (e.active.flatMap (fun l =>
        (List.range 8).map (fun k => (k, l, (e.group.readV x.a.toNat l).getLsbD k)))) s) t := by
  refine ran_of_done hi.issues (gateTrap_movx hi) ?_ (fun c sl k _ => putGroup_gangs e _ (writePs_gangs _) s c sl k)
  simp only [vec_of_active hi.lanes, needs_free hf, putPs]

theorem p2v_runs {d : BitVec 6} {s : State} {e : Env} (hi : VecIssuer s e [d.toNat]) (hf : Free e [dstV d.toNat]) :
    ∃ t, exec (.p2v d) s = .next t ∧
      Ran e 1 (lanesWritten e false d.toNat (fun l =>
        ((List.range 8).map (fun k => if e.group.readP k l then 2 ^ k else 0)).sum) s) t := by
  rw [lanesWritten_word]
  refine ran_of_done hi.issues (gateTrap_movx hi) ?_ (fun c sl k _ => putVs_gangs e _ s c sl k)
  simp only [vec_of_active hi.lanes, needs_free hf, packPreds]

section mr
variable {s : State} {e : Env} (h : Issues s e) (hs : e.isScalar = false) (hl : e.profileL = false)

include hs hl in
/-- MRS and MRW name no vector register, and the agent slot has them too (R160, R475). -/
theorem gateTrap_mr (minor : Nat) :
    gateTrap { major := 0x21, minor := minor, agent := .yes, legacy := true } e = none :=
  gateTrap_eq_none_of_reached (absentCause_movx e minor) (.inl rfl) (by simp) hl hs

include h hs hl

theorem mrs_runs {d : BitVec 6} (hf : Free e [dstS d.toNat]) :
    ∃ t, exec (.mrs d) s = .next t ∧ Ran e 1 (putS e d.toNat (s.ctx e.ref).mr s) t := by
  refine ran_of_done h (gateTrap_mr hs hl 6) ?_ (fun c sl k _ => putCtx_gangs e (fun c => c.writeS _ _) s c sl k)
  rw [scalarOp, h.ctx_eq]
  exact needs_free hf ..

theorem mrw_traps {x : SrcArgs} {c : Nat} (hf : Free e [srcS x.a.toNat x.qa])
    (hc : mrCause ((s.ctx e.ref).readS x.a.toNat).toNat = some c) :
    ∃ t, exec (.mrw x) s = .next t ∧ Traps e c e.reportLane 0 e.gang.pc s t := by
  rw [h.ctx_eq] at hc
  refine traps_of_trap (l := none) h (gateTrap_mr hs hl 7) ?_ (mrCause_lt hc)
  simp only [mrwBody, needs_free hf, hc]

theorem mrw_runs {x : SrcArgs} (hf : Free e [srcS x.a.toNat x.qa])
    (hc : mrCause ((s.ctx e.ref).readS x.a.toNat).toNat = none) :
    ∃ t, exec (.mrw x) s = .next t ∧ Ran e 1 (putCtx e (fun c => { c with mr := (s.ctx e.ref).readS x.a.toNat }) s) t := by
  rw [h.ctx_eq] at hc ⊢
  refine ran_of_done h (gateTrap_mr hs hl 7) ?_ (fun c sl k _ => putCtx_gangs e _ s c sl k)
  simp only [mrwBody, needs_free hf, hc]

end mr

/-- Settles O16: each move passes its gate, and its body, its operands free, ends as its rule says in each case of it. -/
theorem movesBetweenRegisters : Obligations.MovesBetweenRegisters := by
  unfold Obligations.MovesBetweenRegisters
  intro r u x d n s e index traps mrRefused
  refine ⟨⟨rfl, rfl, fun w => ⟨decodeWords_p2v_reserved, decodeWords_v2p_reserved⟩⟩, ?v2s, ?v2sOutside, s2v_runs, srd_runs,
    srd_clock_runs, ?fromVector, p2v_runs, ?mrsMrw⟩
  case v2s =>
    intro h hg hl hr hf j hj
    refine v2s_runs h hg hl hr hf ?_
    by_cases hall : index = BitVec.allOnes 32
    · rw [if_pos hall] at hj
      exact (v2sLane_of_allOnes e hall).trans (congrArg Except.ok hj)
    · rw [if_neg hall] at hj
      obtain ⟨rfl, hlt, hp⟩ := hj
      exact v2sLane_of_present hall hlt hp
  case v2sOutside =>
    intro h hg hl hr hf
    exact ⟨fun hne hout => v2s_traps h hg hl hr hf (v2sLane_of_absent hne hout),
      fun hall hnone => v2s_runs_none h hg hl hr hf ((v2sLane_of_allOnes e hall).trans (by rw [hnone]; rfl))⟩
  case fromVector =>
    intro hi hf v
    exact ⟨fun hn => mrRefused_of_mrCause (fun c => swr_mr_traps hi hf hn), swr_exc_traps hi hf, swr_priv_traps hi hf,
      swr_mr_runs hi hf, swr_exc_runs hi hf, v2p_runs hi hf⟩
  case mrsMrw =>
    intro h hs hl
    exact ⟨mrs_runs h hs hl, fun hf => mrRefused_of_mrCause (fun c => mrw_traps h hs hl hf), mrw_runs h hs hl⟩

end Sys2Proof.Machine
end
